-- ==== Sys2Proof/Word.lean ====
section
/-! DEFINITION. The widths of the block (spec/00_scope.md rule R8): names for the bit vectors the frame format fixes. -/

namespace Sys2Proof

/-- A byte of a frame, and also a register index, a register offset or a word count (R8). -/
abbrev Byte := BitVec 8

/-- A 16-bit device register word, or a CRC (R8). -/
abbrev Word := BitVec 16

/-- A 32-bit tick value, carried in two words (R8, R185). -/
abbrev Ticks := BitVec 32

/-- The 4-bit sequence number (R8, R29). -/
abbrev Nibble := BitVec 4

/-- The first six bytes of a frame read as one 48-bit number (R86). -/
abbrev HeaderWord := BitVec 48

end Sys2Proof
end

