-- ==== Sys2Proof/Config.lean ====
section
/-! DEFINITION. The constants the source fixes (spec/00_scope.md rule R6), the parameters it leaves open (R7, R30, R61) and the
uninterpreted values those parameters have in `State.reset`. -/

namespace Sys2Proof

/-- The constants of R6, kept in one record because the source's literals are unaudited. -/
structure Constants where
  sof : Byte
  devAddr : Byte
  dirRead : Byte
  dirWrite : Byte
  seqShift : Nat
  seqMod : Nat
  statusOk : Byte
  crcPoly : Word
  crcInit : Word
  crcRefIn : Bool
  crcRefOut : Bool
  crcXorOut : Word
  hdrLen : Nat
  hdrBlkLen : Nat
  wcMax : Nat
  payMax : Nat
  frameMax : Nat
  /-- Word count of the commands that move one register word (R58). -/
  regWords : Byte
  /-- Word count of the commands that move a tick value (R58). -/
  tickWords : Byte
  baud : Nat
  dataBits : Nat
  parity : Bool
  stopBits : Nat
  deriving DecidableEq, Repr

/-- The values of R6, with the two word counts of R58 that its row `register map` gives the typed commands. The last four are the line settings the protocol assumes of the transport; the block does not set them. -/
def constants : Constants where
  sof := 0xA5
  devAddr := 0x3F
  dirRead := 0x01
  dirWrite := 0x02
  seqShift := 2
  seqMod := 16
  statusOk := 0x01
  crcPoly := 0x1021
  crcInit := 0x0000
  crcRefIn := false
  crcRefOut := false
  crcXorOut := 0x0000
  hdrLen := 6
  hdrBlkLen := 8
  wcMax := 255
  payMax := 510
  frameMax := 520
  regWords := 1
  tickWords := 2
  baud := 115200
  dataBits := 8
  parity := false
  stopBits := 1

/-- Byte order of payload words and of 32-bit values (R56). -/
inductive PayloadOrder where
  | le
  | be
  deriving DecidableEq, Repr

/-- The address of a device register: a pair of bytes (R50). -/
structure Address where
  index : Byte
  offset : Byte
  deriving DecidableEq, Repr

/-- The register map `REGMAP` of R61, one field for each of its twelve names. The status register has no offset of its own:
the operand of `GET_STATUS` is the offset (R189). The word counts of the two uninterpreted reads stand beside their
addresses; the word counts of the other names are those of the values the commands carry (R58), `constants.regWords` and
`constants.tickWords`. Log entry 15. -/
structure RegMap where
  writeAccess : Address
  bridge : Address
  home : Address
  stop : Address
  resetEvents : Address
  sync : Address
  setMeasuredPosition : Address
  goto : Address
  position : Address
  productInfo : Address
  productInfoWords : Byte
  firmware : Address
  firmwareWords : Byte
  statusIndex : Byte
  deriving DecidableEq, Repr

/-- The one map the source gives (R61). -/
def RegMap.source : RegMap where
  writeAccess := ⟨0x07, 0x00⟩
  bridge := ⟨0x01, 0x00⟩
  home := ⟨0x01, 0x00⟩
  stop := ⟨0x01, 0x00⟩
  resetEvents := ⟨0x01, 0x00⟩
  sync := ⟨0x01, 0x00⟩
  setMeasuredPosition := ⟨0x39, 0x00⟩
  goto := ⟨0x45, 0x00⟩
  position := ⟨0x12, 0x00⟩
  productInfo := ⟨0x8C, 0x00⟩
  productInfoWords := 0x31
  firmware := ⟨0x0B, 0x00⟩
  firmwareWords := 0x80
  statusIndex := 0x02

/-- The configuration registers of R30: the open parameters of R7, set before reset is released and never written by a command. -/
structure Config where
  seqReset : Nibble
  payloadOrder : PayloadOrder
  verifyResponseCrc : Bool
  /-- `BYTE_TIMEOUT` in milliseconds; it lives inside `T.read1` and no rule depends on its value (R222). -/
  byteTimeout : Nat
  valWriteAccess : Word
  valBridgeEnable : Word
  valBridgeDisable : Word
  valHome : Word
  valStop : Word
  valResetEvents : Word
  valSync : Word
  regMap : RegMap
  deriving DecidableEq, Repr

namespace Config

/-- `SEQ_RESET` of the machine `State.reset` stands for: an open parameter (R7, D3), so nothing is known of it. Log entry 1. -/
opaque freeSeqReset : Nibble

/-- `PAYLOAD_ORDER` of that machine as its one bit, true for `BE` (R30); open (D5), so nothing is known of it. Log entry 2. -/
opaque freePayloadOrderBit : Bool

/-- `BYTE_TIMEOUT` of that machine, in milliseconds; open (D15), so nothing is known of it. Log entry 3. -/
opaque freeByteTimeout : Nat

/-- `VAL_WRITE_ACCESS` of that machine; open (D6), so nothing is known of it. Log entry 4 (and for the six below). -/
opaque freeValWriteAccess : Word

/-- `VAL_BRIDGE_ENABLE` of that machine; open (D6). -/
opaque freeValBridgeEnable : Word

/-- `VAL_BRIDGE_DISABLE` of that machine; open (D6). -/
opaque freeValBridgeDisable : Word

/-- `VAL_HOME` of that machine; open (D6). -/
opaque freeValHome : Word

/-- `VAL_STOP` of that machine; open (D6). -/
opaque freeValStop : Word

/-- `VAL_RESET_EVENTS` of that machine; open (D6). -/
opaque freeValResetEvents : Word

/-- `VAL_SYNC` of that machine; open (D6). -/
opaque freeValSync : Word

/-- What `OP_DIR` reads as where no command has loaded it, true for a write: nothing is known of it. Log entry 16 (and for the six
below). -/
opaque freeOpIsWrite : Bool

/-- What `OP_SEQ` reads as where no command has loaded it. -/
opaque freeOpSeq : Nibble

/-- What `OP_IDX` reads as where no command has loaded it. -/
opaque freeOpIdx : Byte

/-- What `OP_OFF` reads as where no command has loaded it. -/
opaque freeOpOff : Byte

/-- What `OP_WC` reads as where no command has loaded it. -/
opaque freeOpWc : Byte

/-- What `OP_PAY` reads as where no command has loaded it. -/
opaque freeOpPay : List Byte

/-- What `OP_HASPAY` reads as where no command has loaded it. -/
opaque freeOpHasPay : Bool

/-- The configuration `State.reset` holds: the open parameters are uninterpreted; `VERIFY_RESPONSE_CRC` is the default the
source states (R7, false) and the register map is the one it gives (R61). Every statement about the block is for every
configuration, this one included. -/
def ofSource : Config where
  seqReset := freeSeqReset
  payloadOrder := if freePayloadOrderBit then .be else .le
  verifyResponseCrc := false
  byteTimeout := freeByteTimeout
  valWriteAccess := freeValWriteAccess
  valBridgeEnable := freeValBridgeEnable
  valBridgeDisable := freeValBridgeDisable
  valHome := freeValHome
  valStop := freeValStop
  valResetEvents := freeValResetEvents
  valSync := freeValSync
  regMap := RegMap.source

end Config

end Sys2Proof
end

