-- ==== Sys2Proof/Machine/Crc.lean ====
section
/-! DEFINITION. The CRC-16/XMODEM generator, unit `CRC` (spec/40_crc.md), as functions of bytes: the bit-serial form that is
normative (R112), and the two forms the spec says are equal to it (R114, R115). -/

namespace Sys2Proof.Machine

/-- One iteration of the loop of `CRC_BYTE` (R112): shift left by one with the top bit dropped, and apply the polynomial
when the bit shifted out was 1. -/
def crcShift (c : Word) : Word :=
  if c.msb then (c <<< 1) ^^^ constants.crcPoly else c <<< 1

/-- `k` iterations of the loop of `CRC_BYTE`. -/
def crcShifts : Nat → Word → Word
  | 0, c => c
  | k + 1, c => crcShifts k (crcShift c)

/-- `CRC_BYTE b` as a function of the accumulator (R112): the byte is placed in bits 15:8, then eight iterations. -/
def crcByte (acc : Word) (b : Byte) : Word :=
  crcShifts 8 (acc ^^^ (b.setWidth 16 <<< 8))

/-- `CRC16(s)` (R113): `CRC_CLEAR`, then `CRC_BYTE` for each byte in increasing index order. -/
def crc16 (s : List Byte) : Word :=
  s.foldl crcByte constants.crcInit

/-- The byte-parallel form of `CRC_BYTE` (R114), bit 15 first. -/
def crcByteParallel (c : Word) (d : Byte) : Word :=
  let x (i : Nat) : Bool := c.getLsbD i
  let y (i : Nat) : Bool := d.getLsbD i
  BitVec.ofBoolListBE
    [x 7 ^^ x 11 ^^ x 15 ^^ y 3 ^^ y 7,
     x 6 ^^ x 10 ^^ x 14 ^^ y 2 ^^ y 6,
     x 5 ^^ x 9 ^^ x 13 ^^ y 1 ^^ y 5,
     x 4 ^^ x 8 ^^ x 12 ^^ x 15 ^^ y 0 ^^ y 4 ^^ y 7,
     x 3 ^^ x 14 ^^ y 6,
     x 2 ^^ x 13 ^^ y 5,
     x 1 ^^ x 12 ^^ y 4,
     x 0 ^^ x 11 ^^ x 15 ^^ y 3 ^^ y 7,
     x 10 ^^ x 14 ^^ x 15 ^^ y 2 ^^ y 6 ^^ y 7,
     x 9 ^^ x 13 ^^ x 14 ^^ y 1 ^^ y 5 ^^ y 6,
     x 8 ^^ x 12 ^^ x 13 ^^ y 0 ^^ y 4 ^^ y 5,
     x 12 ^^ y 4,
     x 11 ^^ x 15 ^^ y 3 ^^ y 7,
     x 10 ^^ x 14 ^^ y 2 ^^ y 6,
     x 9 ^^ x 13 ^^ y 1 ^^ y 5,
     x 8 ^^ x 12 ^^ y 0 ^^ y 4]

/-- The table of R115, generated from `CRC16` and not typed in. -/
def crcTable (t : Byte) : Word :=
  crc16 [t]

/-- The table form of `CRC_BYTE` (R115). -/
def crcByteTable (acc : Word) (b : Byte) : Word :=
  (acc <<< 8) ^^^ crcTable ((acc >>> 8).setWidth 8 ^^^ b)

end Sys2Proof.Machine
end

