-- ==== Sys2Proof/Syntax.lean ====
section
/-! DEFINITION. The syntax of the block (spec/30_encoding.md): the 15 commands of R91 and the two response formats of the opcode
table as ONE inductive, the rows of the table, and the operands of `ENCODE_REQUEST` (spec/41_frame_codec.md R131). -/

namespace Sys2Proof

/-- The direction field of a request (R81, R92): the values `00` and `11` are left out, no request can express them. -/
inductive Dir where
  | read
  | write
  deriving DecidableEq, Repr

/-- The operands of `ENCODE_REQUEST` without the sequence nibble (R131): what a transaction asks for. -/
structure Request where
  dir : Dir
  idx : Byte
  off : Byte
  wc : Byte
  pay : Option (List Byte)
  deriving DecidableEq, Repr

/-- A response header block, byte by byte (R83), its two CRC bytes as one word (R54). -/
structure RspHeader where
  sof : Byte
  addr : Byte
  ctrl : Byte
  status : Byte
  reserved : Byte
  wc : Byte
  hcrc : Word
  deriving DecidableEq, Repr

/-- The instructions: one constructor for each row of the opcode table. The first fifteen are the commands a caller hands
the block (R91, R96); the last two are the response formats that arrive on the receive byte stream (R83, R84, R98). -/
inductive Instr where
  /-- `READ_REG idx, off, wc` (R173). -/
  | readReg (idx off wc : Byte)
  /-- `WRITE_REG idx, off, wc, words` (R175). -/
  | writeReg (idx off wc : Byte) (words : List Word)
  /-- `GAIN_WRITE_ACCESS` (R178). -/
  | gainWriteAccess
  /-- `ENABLE_BRIDGE` (R179). -/
  | enableBridge
  /-- `DISABLE_BRIDGE` (R180). -/
  | disableBridge
  /-- `HOME` (R181). -/
  | home
  /-- `STOP` (R182). -/
  | stop
  /-- `RESET_EVENTS` (R183). -/
  | resetEvents
  /-- `SYNC` (R184). -/
  | sync
  /-- `SET_MEASURED_POSITION ticks` (R185). -/
  | setMeasuredPosition (ticks : Ticks)
  /-- `GOTO_TICKS ticks` (R186). -/
  | gotoTicks (ticks : Ticks)
  /-- `GET_POSITION_TICKS` (R187). -/
  | getPositionTicks
  /-- `GET_STATUS sel` (R189). -/
  | getStatus (sel : Byte)
  /-- `GET_FIRMWARE_INFO` (R190). -/
  | getFirmwareInfo
  /-- `GET_PRODUCT_INFO` (R191). -/
  | getProductInfo
  /-- `RSP_OK`: a whole response with status flag 1, its payload, and the payload CRC when there is a payload (R84, R146). -/
  | rspOk (hdr : RspHeader) (payload : List Byte) (pcrc : Option Word)
  /-- `RSP_ERR`: the eight bytes of a response header block with any other status flag (R93, R142). -/
  | rspErr (hdr : RspHeader)
  deriving DecidableEq, Repr

/-- The rows of the opcode table, in its order (R98). -/
inductive Row where
  | readReg
  | writeReg
  | gainWriteAccess
  | enableBridge
  | disableBridge
  | home
  | stop
  | resetEvents
  | sync
  | setMeasuredPosition
  | gotoTicks
  | getPositionTicks
  | getStatus
  | getFirmwareInfo
  | getProductInfo
  | rspOk
  | rspErr
  deriving DecidableEq, Repr

/-- The row of the opcode table an instruction belongs to. -/
def Instr.row : Instr → Row
  | .readReg _ _ _ => .readReg
  | .writeReg _ _ _ _ => .writeReg
  | .gainWriteAccess => .gainWriteAccess
  | .enableBridge => .enableBridge
  | .disableBridge => .disableBridge
  | .home => .home
  | .stop => .stop
  | .resetEvents => .resetEvents
  | .sync => .sync
  | .setMeasuredPosition _ => .setMeasuredPosition
  | .gotoTicks _ => .gotoTicks
  | .getPositionTicks => .getPositionTicks
  | .getStatus _ => .getStatus
  | .getFirmwareInfo => .getFirmwareInfo
  | .getProductInfo => .getProductInfo
  | .rspOk _ _ _ => .rspOk
  | .rspErr _ => .rspErr

/-- The fifteen commands a caller may hand the block (R91); the two response formats are no commands. -/
def Row.isCommand : Row → Bool
  | .readReg => true
  | .writeReg => true
  | .gainWriteAccess => true
  | .enableBridge => true
  | .disableBridge => true
  | .home => true
  | .stop => true
  | .resetEvents => true
  | .sync => true
  | .setMeasuredPosition => true
  | .gotoTicks => true
  | .getPositionTicks => true
  | .getStatus => true
  | .getFirmwareInfo => true
  | .getProductInfo => true
  | .rspOk => false
  | .rspErr => false

/-- Whether an instruction is one of the fifteen commands. -/
def Instr.isCommand (i : Instr) : Bool :=
  i.row.isCommand

end Sys2Proof
end

