-- ==== Sys2Proof/Machine/Operands.lean ====
section
/-! DEFINITION. The operand forms: byte strings of words and numbers (spec/00_scope.md R12), payload assembly for writes
(spec/30_encoding.md R89) and value extraction for reads (R90). -/

namespace Sys2Proof.Machine

/-- Bits 15:8 of a word (R11). -/
def hiByte (v : Word) : Byte :=
  v.extractLsb' 8 8

/-- Bits 7:0 of a word (R11). -/
def loByte (v : Word) : Byte :=
  v.extractLsb' 0 8

/-- `be16` (R12): high byte first. -/
def be16 (v : Word) : List Byte :=
  [hiByte v, loByte v]

/-- `le16` (R12): low byte first. -/
def le16 (v : Word) : List Byte :=
  [loByte v, hiByte v]

/-- The 16-bit number whose high and low bytes are given (R12). -/
def wordOf (hi lo : Byte) : Word :=
  hi ++ lo

/-- `v[31:16]`, the high word of a tick value. -/
def hiWord (v : Ticks) : Word :=
  v.extractLsb' 16 16

/-- `v[15:0]`, the low word of a tick value. -/
def loWord (v : Ticks) : Word :=
  v.extractLsb' 0 16

/-- `be32` (R12): the four bytes, high first. -/
def be32 (v : Ticks) : List Byte :=
  [v.extractLsb' 24 8, v.extractLsb' 16 8, v.extractLsb' 8 8, v.extractLsb' 0 8]

/-- `le32` (R12): the four bytes, low first. -/
def le32 (v : Ticks) : List Byte :=
  [v.extractLsb' 0 8, v.extractLsb' 8 8, v.extractLsb' 16 8, v.extractLsb' 24 8]

/-- The two bytes of one word in the payload order (R56). -/
def wordBytes (o : PayloadOrder) (w : Word) : List Byte :=
  match o with
  | .le => le16 w
  | .be => be16 w

/-- `words_to_bytes` (R89): word 0 first. -/
def wordsToBytes (o : PayloadOrder) (ws : List Word) : List Byte :=
  ws.flatMap (wordBytes o)

/-- `u32_to_bytes` (R89). -/
def u32ToBytes (o : PayloadOrder) (v : Ticks) : List Byte :=
  match o with
  | .le => le32 v
  | .be => be32 v

/-- `bytes_to_u16` (R90): the first two bytes, the rest ignored; no value when there are fewer than two. -/
def bytesToU16 (o : PayloadOrder) (p : List Byte) : Option Word :=
  match p with
  | b0 :: b1 :: _ =>
    match o with
    | .le => some (wordOf b1 b0)
    | .be => some (wordOf b0 b1)
  | _ => none

/-- `bytes_to_u32` (R90): the first four bytes, the rest ignored; no value when there are fewer than four. -/
def bytesToU32 (o : PayloadOrder) (p : List Byte) : Option Ticks :=
  match p with
  | b0 :: b1 :: b2 :: b3 :: _ =>
    match o with
    | .le => some (wordOf b3 b2 ++ wordOf b1 b0)
    | .be => some (wordOf b0 b1 ++ wordOf b2 b3)
  | _ => none

/-- The words whose bytes, in the payload order, a payload holds: the inverse of `wordsToBytes` on an even number of bytes;
an odd last byte is dropped. -/
def bytesToWords (o : PayloadOrder) : List Byte → List Word
  | b0 :: b1 :: rest =>
    (match o with
      | .le => wordOf b1 b0
      | .be => wordOf b0 b1) :: bytesToWords o rest
  | _ => []

end Sys2Proof.Machine
end

