-- ==== Sys2Proof/Machine/Frame.lean ====
section
/-! DEFINITION. Frames as byte strings (spec/30_encoding.md): the request frame `ENCODE_REQUEST` builds (spec/41_frame_codec.md
R131) and the bytes of a response (R83, R84). -/

namespace Sys2Proof.Machine

/-- The two direction bits as a byte (R6, R81). -/
def dirCode (d : Dir) : Byte :=
  match d with
  | .read => constants.dirRead
  | .write => constants.dirWrite

/-- The control byte of a request: `dir | (seq << 2)` (R87). -/
def ctrlByte (d : Dir) (seq : Nibble) : Byte :=
  dirCode d ||| (seq.setWidth 8 <<< constants.seqShift)

/-- The six header bytes of a request (R81). -/
def requestHeader (seq : Nibble) (r : Request) : List Byte :=
  [constants.sof, constants.devAddr, ctrlByte r.dir seq, r.idx, r.off, r.wc]

/-- A byte string followed by its own CRC, high byte first (R54, R119). -/
def withCrc (s : List Byte) : List Byte :=
  s ++ be16 (crc16 s)

/-- The payload block of a request: nothing when the payload is absent or empty (R82, R131). -/
def payloadBlock (pay : Option (List Byte)) : List Byte :=
  match pay with
  | some (b :: bs) => withCrc (b :: bs)
  | _ => []

/-- The frame `ENCODE_REQUEST` builds (R131). -/
def encodeRequest (seq : Nibble) (r : Request) : List Byte :=
  withCrc (requestHeader seq r) ++ payloadBlock r.pay

/-- The six header bytes of a response (R83). -/
def responseHeader (h : RspHeader) : List Byte :=
  [h.sof, h.addr, h.ctrl, h.status, h.reserved, h.wc]

/-- The eight bytes of a response header block (R83). -/
def responseBlock (h : RspHeader) : List Byte :=
  responseHeader h ++ be16 h.hcrc

/-- The two trailing CRC bytes of a response payload, where there is one (R84). -/
def pcrcBytes (pcrc : Option Word) : List Byte :=
  match pcrc with
  | some c => be16 c
  | none => []

/-- The bytes of a whole response (R83, R84). -/
def responseBytes (h : RspHeader) (payload : List Byte) (pcrc : Option Word) : List Byte :=
  responseBlock h ++ payload ++ pcrcBytes pcrc

/-- The first six bytes of a frame as one number, byte 0 in bits 47:40 (R86). -/
def headerWord (b0 b1 b2 b3 b4 b5 : Byte) : HeaderWord :=
  b0 ++ b1 ++ b2 ++ b3 ++ b4 ++ b5

end Sys2Proof.Machine
end

