-- ==== Sys2Proof/Machine/State.lean ====
section
/-! DEFINITION. The architectural state of the block (spec/10_state.md), the answers of the transport and the inputs of the caller
as plain data, the reasons a step can stop, and the state after reset (R34, R240). -/

namespace Sys2Proof.Machine

/-- The phase register `PH` (R27). -/
inductive Phase where
  | idle
  | purging
  | sending
  | flushing
  | rxHeader
  | rxPayload
  deriving DecidableEq, Repr

/-- The result codes of R211. `notConnected` and `commandFailed` belong to the caller's layer; the block never raises them. -/
inductive ResultCode where
  | ok
  | notConnected
  | transportError
  | timeout
  | badResponse
  | commandFailed
  | crcMismatch
  deriving DecidableEq, Repr

/-- `RVAL` (R31): a byte string, a 16-bit number or a 32-bit number. -/
inductive Value where
  | bytes (p : List Byte)
  | u16 (v : Word)
  | u32 (v : Ticks)
  deriving DecidableEq, Repr

/-- The decoded response frame `RFRAME` (R146); the fields `sof` to `hcrc` of the rule stand in `hdr`. -/
structure Frame where
  hdr : RspHeader
  payload : List Byte
  pcrc : Option Word
  deriving DecidableEq, Repr

/-- What the rule of the command in flight does with the decoded frame once `XACT` has succeeded: nothing (R175), return the
payload (R173), its first word (R189) or its first two words (R187). Log entry 9. -/
inductive Return where
  | nothing
  | payload
  | word
  | ticks
  deriving DecidableEq, Repr

/-- The operand latches `OP_*` of the command in flight (R26), loaded together when it is accepted. -/
structure Latches where
  dir : Dir
  seq : Nibble
  idx : Byte
  off : Byte
  wc : Byte
  pay : List Byte
  hasPay : Bool
  deriving DecidableEq, Repr

/-- The answers of `T.purge` (R14). -/
inductive PurgeAnswer where
  | ok
  | ioError
  deriving DecidableEq, Repr

/-- The answers of `T.write` (R14). -/
inductive WriteAnswer where
  | written (n : Nat)
  | ioError
  deriving DecidableEq, Repr

/-- The answers of `T.read1` (R14). -/
inductive ReadAnswer where
  | byte (b : Byte)
  | noData
  | ioError
  deriving DecidableEq, Repr

/-- One event of the trace (R16): a call of a transport primitive with its answer. -/
inductive Event where
  | purge (a : PurgeAnswer)
  | tx (s : List Byte) (a : WriteAnswer)
  | flush
  | rx (a : ReadAnswer)
  deriving DecidableEq, Repr

/-- Agent `T` as far as the block can meet it (R10, R33): the answers it has ready. A list that has run out means that `T`
has not answered yet; nothing is assumed of what it will answer. Log entry 6. -/
structure Line where
  /-- The answers to the next calls of `T.purge`. -/
  purges : List PurgeAnswer
  /-- The answers to the next calls of `T.write`. -/
  writes : List WriteAnswer
  /-- What the receive side holds for the next calls of `T.read1`, until a purge discards it. -/
  rx : List ReadAnswer
  /-- What the receive side holds after the next purge, after the one that follows it, and so on. -/
  later : List (List ReadAnswer)
  deriving DecidableEq, Repr

/-- What reaches the block or its transport from outside, oldest first. Log entry 5. -/
inductive Input where
  /-- The caller hands the block a command, as a value of the enumerated type (R96, R194). -/
  | command (i : Instr)
  /-- Bytes reach the receive side of the transport (R52, R216). -/
  | frame (bs : List Byte)
  /-- The block is reset (R241). -/
  | reset
  /-- The caller starts the pseudo-instruction `SYNC_POSITION ticks` (R97). -/
  | syncPosition (ticks : Ticks)
  deriving DecidableEq, Repr

/-- The state of the machine. A field of type `Option` is one of which R31 and R34 say that it can hold no value. -/
structure State where
  /-- The configuration registers (R30). -/
  cfg : Config
  /-- `SEQ` (R29). -/
  seq : Nibble
  /-- `PH` (R27). -/
  ph : Phase
  /-- `CRCACC` (R21). -/
  crcAcc : Option Word
  /-- `TXBUF` (R22): the bytes it holds, from index 0. -/
  txBuf : List Byte
  /-- `TXLEN` (R22). -/
  txLen : Nat
  /-- `RXHDR` (R23): the bytes it holds, from index 0. -/
  rxHdr : List Byte
  /-- `RXHCNT` (R23). -/
  rxHCnt : Nat
  /-- `RXPAY` (R24): the bytes it holds, from index 0. -/
  rxPay : List Byte
  /-- `RXPLEN` (R24). -/
  rxPLen : Nat
  /-- `RXPCNT` (R24). -/
  rxPCnt : Nat
  /-- `RXPCRC` (R25): the bytes it holds, from index 0. -/
  rxPCrc : List Byte
  /-- `RXCCNT` (R25). -/
  rxCCnt : Nat
  /-- The operand latches `OP_*` (R26). -/
  op : Option Latches
  /-- What the rule of the command in flight, or of the last one, does with the decoded frame: the place in the command's rule to which
  `XACT` returns. The model's own: no register of the block. Log entry 9. -/
  ret : Return
  /-- `HCRC_CALC` (R28). -/
  hcrcCalc : Option Word
  /-- `HCRC_RECV` (R28). -/
  hcrcRecv : Option Word
  /-- `HCRC_OK` (R28). -/
  hcrcOk : Option Bool
  /-- `HCRC_VALID` (R28). -/
  hcrcValid : Bool
  /-- `PCRC_CALC` (R28). -/
  pcrcCalc : Option Word
  /-- `PCRC_RECV` (R28). -/
  pcrcRecv : Option Word
  /-- `PCRC_OK` (R28). -/
  pcrcOk : Option Bool
  /-- `PCRC_VALID` (R28). -/
  pcrcValid : Bool
  /-- `RES` (R31). -/
  res : Option ResultCode
  /-- `RVAL` (R31). -/
  rval : Option Value
  /-- `RFRAME` (R31). -/
  rframe : Option Frame
  /-- The event trace (R16), oldest first: bookkeeping the block never reads (R32). -/
  trace : List Event
  /-- Agent `T` (R33). -/
  line : Line
  /-- The inputs still to come, oldest first. -/
  inbox : List Input
  /-- The caller is in a `SYNC_POSITION` whose first command has been accepted and whose second half is still to come (R97). The
  model's own: no register of the block. Log entry 25. -/
  syncPending : Bool
  deriving DecidableEq, Repr

/-- The elements a read of the caller can find holding no value. -/
inductive Element where
  | res
  | rval
  | rframe
  | headerCrc
  | payloadCrc
  deriving DecidableEq, Repr

/-- Why a step can stop. Both are faults of the model, not result codes of the hardware. -/
inductive Fault where
  /-- An accepted response is too short for the typed result of `GET_POSITION_TICKS` or `GET_STATUS` (R188, U6): raised when
  the command's result is taken, with the state the block is left in. The spec names this fault. Safe. -/
  | shortPayload (left : State)
  /-- `T` does not answer the primitive the block is waiting in (U17, R195): raised by a step of the block with no answer and
  nothing in the inbox. Safe. -/
  | transportStuck
  deriving DecidableEq, Repr

/-- Why an instruction is given no meaning. -/
inductive Refusal where
  /-- No meaning yet, by mnemonic: raised by an arm of `exec` only; no arm raises it now. Safe. -/
  | notModelled (mnemonic : String)
  /-- The operands break a well-formedness rule (R176, U16): no event, no state change, no result. Safe. -/
  | illFormed
  /-- A command is issued while another is in flight (R62, R176, U7): no event, no state change, no result. Safe. -/
  | overlap
  /-- The caller reads a result or diagnostic register while a command is in flight (R35, R194, R254): raised by the caller's reads
  of Machine/Results.lean only. The spec forbids the read and gives it no value. Safe. Log entry 28. -/
  | readInFlight
  deriving DecidableEq, Repr

/-- What a step of the block answers. -/
abbrev Result :=
  Host.Outcome State Fault Refusal

/-- The block right after reset with a given configuration (R34, R240): nothing known of the transport, no input yet. -/
def State.resetWith (cfg : Config) : State where
  cfg := cfg
  seq := cfg.seqReset
  ph := .idle
  crcAcc := none
  txBuf := []
  txLen := 0
  rxHdr := []
  rxHCnt := 0
  rxPay := []
  rxPLen := 0
  rxPCnt := 0
  rxPCrc := []
  rxCCnt := 0
  op := none
  ret := .nothing
  hcrcCalc := none
  hcrcRecv := none
  hcrcOk := none
  hcrcValid := false
  pcrcCalc := none
  pcrcRecv := none
  pcrcOk := none
  pcrcValid := false
  res := none
  rval := none
  rframe := none
  trace := []
  line := ⟨[], [], [], []⟩
  inbox := []
  syncPending := false

/-- The machine right after reset. -/
def State.reset : State :=
  State.resetWith Config.ofSource

end Sys2Proof.Machine
end

