-- ==== Sys2Proof/Machine/Flags.lean ====
section
/-! DEFINITION. The flags of the block: the diagnostic CRC registers (spec/10_state.md R28), computed by `DECODE_RESPONSE`
(spec/41_frame_codec.md R140, R144) and cleared when a command is accepted (spec/42_register_commands.md R170). -/

namespace Sys2Proof.Machine

/-- Clear the two `_VALID` bits (R170); the other diagnostic registers keep what they hold. -/
def clearCrcFlags (s : State) : State :=
  { s with hcrcValid := false, pcrcValid := false }

/-- Byte `i` of the received header block. Every rule that reads it does so after the byte has been stored. -/
def hdrByte (s : State) (i : Nat) : Byte :=
  s.rxHdr.getD i 0

/-- The six received header bytes `RXHDR[0..5]`. -/
def rxHeaderBytes (s : State) : List Byte :=
  s.rxHdr.take constants.hdrLen

/-- The received payload `RXPAY[0..RXPLEN-1]`. -/
def rxPayloadBytes (s : State) : List Byte :=
  s.rxPay.take s.rxPLen

/-- `RXHDR[6] * 256 + RXHDR[7]` (R28). -/
def rxHeaderCrc (s : State) : Word :=
  wordOf (hdrByte s 6) (hdrByte s 7)

/-- `RXPCRC[0] * 256 + RXPCRC[1]` (R28). -/
def rxPayloadCrc (s : State) : Word :=
  wordOf (s.rxPCrc.getD 0 0) (s.rxPCrc.getD 1 0)

/-- The header CRC diagnostic (R140): the CRC unit runs over the six header bytes, and the comparison is recorded. -/
def setHeaderCrcFlags (s : State) : State :=
  { s with
    crcAcc := some (crc16 (rxHeaderBytes s))
    hcrcCalc := some (crc16 (rxHeaderBytes s))
    hcrcRecv := some (rxHeaderCrc s)
    hcrcOk := some (crc16 (rxHeaderBytes s) == rxHeaderCrc s)
    hcrcValid := true }

/-- The payload CRC diagnostic (R144): the CRC unit runs over the payload alone, and the comparison is recorded. -/
def setPayloadCrcFlags (s : State) : State :=
  { s with
    crcAcc := some (crc16 (rxPayloadBytes s))
    pcrcCalc := some (crc16 (rxPayloadBytes s))
    pcrcRecv := some (rxPayloadCrc s)
    pcrcOk := some (crc16 (rxPayloadBytes s) == rxPayloadCrc s)
    pcrcValid := true }

end Sys2Proof.Machine
end

