-- ==== Sys2Proof/Machine/Ops.lean ====
section
/-! DEFINITION. The shared operations over the state: the four transport primitives with their events (spec/00_scope.md R14, R16),
the buffers, accepting a command (spec/42_register_commands.md R170, R171), ending one with an error, which is the block's
only exception (spec/60_exceptions.md R218), and reset (spec/70_reset_and_hazards.md R240, R241). There is no operation that
returns from an exception (R220): the block is idle and takes the next command. -/

namespace Sys2Proof.Machine

/-- Append one event to the trace (R16). -/
def record (e : Event) (s : State) : State :=
  { s with trace := s.trace ++ [e] }

/-- Write byte `b` at index `k` of a buffer; what stands behind it stays (R23 to R25). -/
def putAt (buf : List Byte) (k : Nat) (b : Byte) : List Byte :=
  buf.take k ++ b :: buf.drop (k + 1)

/-- Write a byte string from index 0 of a buffer; what stands behind it stays (R22). -/
def putFront (buf : List Byte) (f : List Byte) : List Byte :=
  f ++ buf.drop f.length

/-- `raise E` (R13, R218): the one way a command ends with an error. It undoes nothing: `SEQ` stays advanced and what was
sent stays sent. -/
def raise (e : ResultCode) (s : State) : State :=
  { s with res := some e, rval := none, rframe := none, ph := .idle }

/-- `T.purge()` (R14, R64): `none` while `T` has not answered. With `Ok`, what the receive side held is discarded and the
next reads see only what arrives after the purge. With `IoError` nothing is discarded: what the receive side held stays; the
spec does not say (91_not_in_source.md N13), so this is the model's choice. DESIGN CHOICE, log entry 26. -/
def tPurge (s : State) : Option (PurgeAnswer × State) :=
  match s.line.purges with
  | [] => none
  | .ok :: ps =>
    some (.ok, record (.purge .ok)
      { s with line := { s.line with purges := ps, rx := s.line.later.headD [], later := s.line.later.tail } })
  | .ioError :: ps =>
    some (.ioError, record (.purge .ioError) { s with line := { s.line with purges := ps } })

/-- `T.write(f)` (R14): `none` while `T` has not answered. -/
def tWrite (f : List Byte) (s : State) : Option (WriteAnswer × State) :=
  match s.line.writes with
  | [] => none
  | a :: ws => some (a, record (.tx f a) { s with line := { s.line with writes := ws } })

/-- `T.flush()` (R14, R65): it answers `Ok` only. -/
def tFlush (s : State) : State :=
  record .flush s

/-- `T.read1()` answering `a`, with `rest` left for the calls to come (R14). -/
def tRead1 (a : ReadAnswer) (rest : List ReadAnswer) (s : State) : State :=
  record (.rx a) { s with line := { s.line with rx := rest } }

/-- The operand latches as the operands of `ENCODE_REQUEST` (R131). -/
def Latches.request (op : Latches) : Request where
  dir := op.dir
  idx := op.idx
  off := op.off
  wc := op.wc
  pay := if op.hasPay then some op.pay else none

/-- Operand latches no command has loaded, as a read finds them: free values, never a zero (R34). No run reads them.
DESIGN CHOICE, log entry 16. -/
def freeLatches : Latches where
  dir := if Config.freeOpIsWrite then .write else .read
  seq := Config.freeOpSeq
  idx := Config.freeOpIdx
  off := Config.freeOpOff
  wc := Config.freeOpWc
  pay := Config.freeOpPay
  hasPay := Config.freeOpHasPay

/-- The operands `ENCODE_REQUEST` reads (R35). -/
def operands (s : State) : Latches :=
  s.op.getD freeLatches

/-- The latches a transaction loads (R26, R170). Without a payload `OP_HASPAY` is 0 and `OP_PAY` is the empty byte string; the spec
does not say which string it then holds, so this is the model's choice. DESIGN CHOICE, log entry 27. -/
def latch (seq : Nibble) (r : Request) : Latches where
  dir := r.dir
  seq := seq
  idx := r.idx
  off := r.off
  wc := r.wc
  pay := r.pay.getD []
  hasPay := r.pay.isSome

/-- The counter advanced modulo `SEQ_MOD` (R29, R171): 4 bits, so 15 wraps to 0. -/
def nextSeq (q : Nibble) : Nibble :=
  BitVec.ofNat 4 ((q.toNat + 1) % constants.seqMod)

/-- The entry of `XACT` (R170, R171): the flags and results of the last command are cleared, the sequence number is taken and
the counter advanced, the operands are latched, and the block is in phase `Purging`. -/
def accept (r : Request) (ret : Return) (s : State) : State :=
  { clearCrcFlags s with
    res := none
    rval := none
    rframe := none
    op := some (latch s.seq r)
    ret := ret
    seq := nextSeq s.seq
    ph := .purging }

/-- What the CRC unit holds after `ENCODE_REQUEST`: it last ran over the payload, or over the header when there is no payload
block (R119). -/
def requestCrcAcc (seq : Nibble) (r : Request) : Word :=
  match r.pay with
  | some (b :: bs) => crc16 (b :: bs)
  | _ => crc16 (requestHeader seq r)

/-- `ENCODE_REQUEST` on the state (R131, R119): the frame goes into `TXBUF`, its length into `TXLEN`. -/
def loadRequest (seq : Nibble) (r : Request) (s : State) : State :=
  { s with
    txBuf := putFront s.txBuf (encodeRequest seq r)
    txLen := (encodeRequest seq r).length
    crcAcc := some (requestCrcAcc seq r) }

/-- The request frame as it stands in `TXBUF` (R22). -/
def txFrame (s : State) : List Byte :=
  s.txBuf.take s.txLen

/-- Reset (R240, R241, R243): every element of the block takes its reset value, a command in flight is abandoned; the
configuration, the transport, the record of what happened and the inputs to come are not reached. A second half of `SYNC_POSITION`
still to come is dropped with the first. DESIGN CHOICE, log entry 25. A primitive that was called and not yet answered leaves no
event, and its answer goes to the next call of its kind: the spec does not say what becomes of it. DESIGN CHOICE, log entry 29. -/
def resetBlock (s : State) : State :=
  { State.resetWith s.cfg with trace := s.trace, line := s.line, inbox := s.inbox }

end Sys2Proof.Machine
end

