-- ==== Sys2Proof/Machine/Codec.lean ====
section
/-! DEFINITION. The response parser `DECODE_RESPONSE` (spec/41_frame_codec.md R135 to R150), one answer of `T.read1` at a time,
and what the rule of the command in flight does with the decoded frame (spec/42_register_commands.md R173 to R191). -/

namespace Sys2Proof.Machine

/-- The entry of `DECODE_RESPONSE` (R137). -/
def startDecode (s : State) : State :=
  { s with ph := .rxHeader, rxHCnt := 0, rxPCnt := 0, rxCCnt := 0, rxPLen := 0 }

/-- The decoded frame (R146). -/
def decodedFrame (s : State) : Frame where
  hdr :=
    { sof := hdrByte s 0
      addr := hdrByte s 1
      ctrl := hdrByte s 2
      status := hdrByte s 3
      reserved := hdrByte s 4
      wc := hdrByte s 5
      hcrc := rxHeaderCrc s }
  payload := rxPayloadBytes s
  pcrc := if s.rxPLen = 0 then none else some (rxPayloadCrc s)

/-- The result of the command from the payload of its response: nothing for a write (R193), the payload as received for a
read of bytes (R174), the first word or the first two words for the typed reads (R187, R189), which fault when the payload
is too short (R188). -/
def returnValue (ret : Return) (payload : List Byte) (s : State) : Result :=
  match ret with
  | .nothing => .next s
  | .payload => .next { s with rval := some (.bytes payload) }
  | .word =>
    match bytesToU16 s.cfg.payloadOrder payload with
    | some v => .next { s with rval := some (.u16 v) }
    | none => .fault (.shortPayload s)
  | .ticks =>
    match bytesToU32 s.cfg.payloadOrder payload with
    | some v => .next { s with rval := some (.u32 v) }
    | none => .fault (.shortPayload s)

/-- Success of the parser and of `XACT` (R146, R170), then the rest of the command's own rule. -/
def finish (s : State) : Result :=
  returnValue s.ret (decodedFrame s).payload
    { s with rframe := some (decodedFrame s), res := some .ok, ph := .idle }

/-- What follows the eighth header byte (R140 to R142): the diagnostic, the enforcement of the header CRC if configured, the
status flag, the payload length. -/
def headerDone (s : State) : Result :=
  if s.cfg.verifyResponseCrc = true ∧ crc16 (rxHeaderBytes s) ≠ rxHeaderCrc s then
    .next (raise .crcMismatch (setHeaderCrcFlags s))
  else if hdrByte s 3 ≠ constants.statusOk then
    .next (raise .badResponse (setHeaderCrcFlags s))
  else if (hdrByte s 5).toNat = 0 then
    finish { setHeaderCrcFlags s with rxPLen := 0 }
  else
    .next { setHeaderCrcFlags s with rxPLen := 2 * (hdrByte s 5).toNat, ph := .rxPayload }

/-- What follows the second payload CRC byte (R144 to R146). -/
def payloadDone (s : State) : Result :=
  if s.cfg.verifyResponseCrc = true ∧ crc16 (rxPayloadBytes s) ≠ rxPayloadCrc s then
    .next (raise .crcMismatch (setPayloadCrcFlags s))
  else
    finish (setPayloadCrcFlags s)

/-- A header byte is stored (R138). -/
def onHeaderByte (b : Byte) (s : State) : Result :=
  let t := { s with rxHdr := putAt s.rxHdr s.rxHCnt b, rxHCnt := s.rxHCnt + 1 }
  if t.rxHCnt < constants.hdrBlkLen then .next t else headerDone t

/-- A payload byte, or after the last of them a payload CRC byte, is stored (R143, R144). -/
def onPayloadByte (b : Byte) (s : State) : Result :=
  if s.rxPCnt < s.rxPLen then
    .next { s with rxPay := putAt s.rxPay s.rxPCnt b, rxPCnt := s.rxPCnt + 1 }
  else
    let t := { s with rxPCrc := putAt s.rxPCrc s.rxCCnt b, rxCCnt := s.rxCCnt + 1 }
    if t.rxCCnt < 2 then .next t else payloadDone t

/-- One byte, in the phase the parser is in; in any other phase no byte is asked for. -/
def onByte (b : Byte) (s : State) : Result :=
  match s.ph with
  | .rxHeader => onHeaderByte b s
  | .rxPayload => onPayloadByte b s
  | .idle => .next s
  | .purging => .next s
  | .sending => .next s
  | .flushing => .next s

/-- One call of `T.read1` answered with `a` (R136, R138, R139, R143, R144): one event, then the byte, `Timeout` or
`TransportError`. -/
def onRead (a : ReadAnswer) (rest : List ReadAnswer) (s : State) : Result :=
  match a with
  | .byte b => onByte b (tRead1 a rest s)
  | .noData => .next (raise .timeout (tRead1 a rest s))
  | .ioError => .next (raise .transportError (tRead1 a rest s))

/-- `DECODE_RESPONSE` from where it stands (R150): one answer after the other, until the command has ended or the answers at
hand have run out. -/
def receive : List ReadAnswer → State → Result
  | [], s => .next s
  | a :: rest, s =>
    match onRead a rest s with
    | .next t => if t.ph = .idle then .next t else receive rest t
    | .fault f => .fault f
    | .refused r => .refused r

end Sys2Proof.Machine
end

