-- ==== Sys2Proof/Machine/Transaction.lean ====
section
/-! DEFINITION. The transaction `XACT` (spec/42_register_commands.md R170), in the two forms spec/92_eei_decisions.md D18 allows: one
primitive at a time (`tick`), and as one step from acceptance to the result (`xact`), which ends early only where the
transport has not answered. Both are made of the same four phases. -/

namespace Sys2Proof.Machine

/-- Phase `Purging`: the answer of `T.purge`, then `ENCODE_REQUEST`; `none` while `T` has not answered. -/
def purgePhase (s : State) : Option Result :=
  match tPurge s with
  | none => none
  | some (.ioError, t) => some (.next (raise .transportError t))
  | some (.ok, t) => some (.next { loadRequest (operands t).seq (operands t).request t with ph := .sending })

/-- Phase `Sending`: one `T.write` with the whole frame; anything but all of it taken is an error; `none` while `T` has not
answered. -/
def sendPhase (s : State) : Option Result :=
  match tWrite (txFrame s) s with
  | none => none
  | some (a, t) =>
    if a = .written (txFrame s).length then some (.next { t with ph := .flushing })
    else some (.next (raise .transportError t))

/-- Phase `Flushing`: `T.flush`, which cannot fail, then the entry of `DECODE_RESPONSE`. -/
def flushPhase (s : State) : State :=
  startDecode (tFlush s)

/-- Phases `RxHeader` and `RxPayload`: one `T.read1`; `none` while `T` has not answered. -/
def readPhase (s : State) : Option Result :=
  match s.line.rx with
  | [] => none
  | a :: rest => some (onRead a rest s)

/-- The small step of the block: one primitive of the command in flight. An idle block does nothing (R226, R242); a block
whose primitive is not answered has no step (U17). -/
def tick (s : State) : Result :=
  match s.ph with
  | .idle => .next s
  | .purging => (purgePhase s).getD (.fault .transportStuck)
  | .sending => (sendPhase s).getD (.fault .transportStuck)
  | .flushing => .next (flushPhase s)
  | .rxHeader => (readPhase s).getD (.fault .transportStuck)
  | .rxPayload => (readPhase s).getD (.fault .transportStuck)

/-- From phase `Sending` to the end of the command, or to where `T` has not answered. -/
def sendAndReceive (s : State) : Result :=
  match sendPhase s with
  | none => .next s
  | some (.next t) =>
    if t.ph = .flushing then receive (flushPhase t).line.rx (flushPhase t) else .next t
  | some (.fault f) => .fault f
  | some (.refused r) => .refused r

/-- From phase `Purging` to the end of the command, or to where `T` has not answered. -/
def transact (s : State) : Result :=
  match purgePhase s with
  | none => .next s
  | some (.next t) => if t.ph = .sending then sendAndReceive t else .next t
  | some (.fault f) => .fault f
  | some (.refused r) => .refused r

/-- `XACT` with what the command's rule does with the frame (R170): accepted only when `PH = Idle` (R194); a command issued
while another is in flight has no meaning (R176). -/
def xact (r : Request) (ret : Return) (s : State) : Result :=
  if s.ph = .idle then transact (accept r ret s) else .refused .overlap

/-- Bytes reach the receive side (R52, R216): a parser that is asking for bytes takes them in order of arrival; otherwise they
wait in the transport's buffer until they are read or purged (R147). -/
def arrive (bs : List Byte) (s : State) : Result :=
  let t := { s with line := { s.line with rx := s.line.rx ++ bs.map ReadAnswer.byte } }
  match t.ph with
  | .rxHeader => receive t.line.rx t
  | .rxPayload => receive t.line.rx t
  | .idle => .next t
  | .purging => .next t
  | .sending => .next t
  | .flushing => .next t

end Sys2Proof.Machine
end

