-- ==== Sys2Proof/WellFormed.lean ====
section
/-! DEFINITION. Well-formedness of instructions and of encoder operands (spec/30_encoding.md R96, spec/41_frame_codec.md R132,
spec/42_register_commands.md R176). The ranges of the operands are their types; what is left to check stands here. -/

namespace Sys2Proof

/-- The list of a `WRITE_REG` holds exactly `wc` words (R96, R176). -/
def wordsMatch (wc : Byte) (words : List Word) : Bool :=
  words.length == wc.toNat

/-- A response's payload block is what its byte 5 says: `2 * wc` bytes and a payload CRC, or neither when `wc = 0` (R84). -/
def payloadMatches (wc : Byte) (payload : List Byte) (pcrc : Option Word) : Bool :=
  payload.length == 2 * wc.toNat && pcrc.isSome == (wc != 0)

/-- The status flag is the one value that means success (R83, R142). -/
def statusIsOk (status : Byte) : Bool :=
  status == constants.statusOk

/-- A well-formed instruction. -/
def Instr.wf : Instr → Bool
  | .readReg _ _ _ => true
  | .writeReg _ _ wc words => wordsMatch wc words
  | .gainWriteAccess => true
  | .enableBridge => true
  | .disableBridge => true
  | .home => true
  | .stop => true
  | .resetEvents => true
  | .sync => true
  | .setMeasuredPosition _ => true
  | .gotoTicks _ => true
  | .getPositionTicks => true
  | .getStatus _ => true
  | .getFirmwareInfo => true
  | .getProductInfo => true
  | .rspOk hdr payload pcrc => statusIsOk hdr.status && payloadMatches hdr.wc payload pcrc
  | .rspErr hdr => !statusIsOk hdr.status

/-- Well-formed operands of `ENCODE_REQUEST`, R132 (c), (d) and (e); (a) and (b) are the types of the operands. -/
def Request.wf (r : Request) : Bool :=
  match r.dir, r.pay with
  | .read, none => true
  | .read, some _ => false
  | .write, none => r.wc == 0
  | .write, some p => p.length == 2 * r.wc.toNat

end Sys2Proof
end

