-- ==== Sys2Proof/Machine/Response.lean ====
section
/-! DEFINITION. The two response formats as instructions (spec/30_encoding.md R83, R84, R98): the bytes of the response reach the
receive side, and the parser, if it is asking for bytes, takes them (spec/41_frame_codec.md R142, R146). -/

namespace Sys2Proof.Machine

/-- `RSP_OK`: a whole response with status flag 1 arrives (R146). -/
def execRspOk (hdr : RspHeader) (payload : List Byte) (pcrc : Option Word) (s : State) : Result :=
  if (Instr.rspOk hdr payload pcrc).wf then arrive (responseBytes hdr payload pcrc) s else .refused .illFormed

/-- `RSP_ERR`: a response header block with another status flag arrives (R142). -/
def execRspErr (hdr : RspHeader) (s : State) : Result :=
  if (Instr.rspErr hdr).wf then arrive (responseBlock hdr) s else .refused .illFormed

end Sys2Proof.Machine
end

