-- ==== Sys2Proof/Machine/Generic.lean ====
section
/-! DEFINITION. The two generic commands (spec/42_register_commands.md, section 2): the operations `READ_REG` and `WRITE_REG`, which
the typed commands are instances of, and the meanings of the two instructions. -/

namespace Sys2Proof.Machine

/-- The operation `READ_REG idx, off, wc` (R173): the payload of the response is the value, whatever its length (R174). -/
def readRegister (idx off wc : Byte) (s : State) : Result :=
  xact ⟨.read, idx, off, wc, none⟩ .payload s

/-- The operation `WRITE_REG idx, off, wc, words` (R175): no payload block when `wc = 0`; a list that does not hold exactly
`wc` words is refused (R176). -/
def writeRegister (idx off wc : Byte) (words : List Word) (s : State) : Result :=
  if wordsMatch wc words then
    xact ⟨.write, idx, off, wc, if wc = 0 then none else some (wordsToBytes s.cfg.payloadOrder words)⟩ .nothing s
  else .refused .illFormed

/-- `READ_REG idx, off, wc` (R173). -/
def execReadReg (idx off wc : Byte) (s : State) : Result :=
  readRegister idx off wc s

/-- `WRITE_REG idx, off, wc, words` (R175). -/
def execWriteReg (idx off wc : Byte) (words : List Word) (s : State) : Result :=
  writeRegister idx off wc words s

end Sys2Proof.Machine
end

