-- ==== Sys2Proof/Machine/TypedRead.lean ====
section
/-! DEFINITION. The typed read commands (spec/42_register_commands.md, section 4). -/

namespace Sys2Proof.Machine

/-- `GET_POSITION_TICKS` (R187, R188). -/
def execGetPositionTicks (s : State) : Result :=
  xact ⟨.read, s.cfg.regMap.position.index, s.cfg.regMap.position.offset, constants.tickWords, none⟩ .ticks s

/-- `GET_STATUS sel` (R189, R188): the selector is the offset byte of the request. -/
def execGetStatus (sel : Byte) (s : State) : Result :=
  xact ⟨.read, s.cfg.regMap.statusIndex, sel, constants.regWords, none⟩ .word s

/-- `GET_FIRMWARE_INFO` (R190). -/
def execGetFirmwareInfo (s : State) : Result :=
  readRegister s.cfg.regMap.firmware.index s.cfg.regMap.firmware.offset s.cfg.regMap.firmwareWords s

/-- `GET_PRODUCT_INFO` (R191). -/
def execGetProductInfo (s : State) : Result :=
  readRegister s.cfg.regMap.productInfo.index s.cfg.regMap.productInfo.offset s.cfg.regMap.productInfoWords s

end Sys2Proof.Machine
end

