-- ==== Sys2Proof/Machine/TypedWrite.lean ====
section
/-! DEFINITION. The typed write commands (spec/42_register_commands.md, section 3). The seven one-word writes are `WRITE_REG` at an
address of the register map with a configured word; the two tick writes are one transaction with a 32-bit payload. -/

namespace Sys2Proof.Machine

/-- A single-register write at an address of the register map (R178 to R184). -/
def writeWord (a : Address) (v : Word) (s : State) : Result :=
  writeRegister a.index a.offset constants.regWords [v] s

/-- A write of a 32-bit tick value at an address of the register map (R185, R186). -/
def writeTicks (a : Address) (ticks : Ticks) (s : State) : Result :=
  xact ⟨.write, a.index, a.offset, constants.tickWords, some (u32ToBytes s.cfg.payloadOrder ticks)⟩ .nothing s

/-- `GAIN_WRITE_ACCESS` (R178). -/
def execGainWriteAccess (s : State) : Result :=
  writeWord s.cfg.regMap.writeAccess s.cfg.valWriteAccess s

/-- `ENABLE_BRIDGE` (R179). -/
def execEnableBridge (s : State) : Result :=
  writeWord s.cfg.regMap.bridge s.cfg.valBridgeEnable s

/-- `DISABLE_BRIDGE` (R180). -/
def execDisableBridge (s : State) : Result :=
  writeWord s.cfg.regMap.bridge s.cfg.valBridgeDisable s

/-- `HOME` (R181). -/
def execHome (s : State) : Result :=
  writeWord s.cfg.regMap.home s.cfg.valHome s

/-- `STOP` (R182). -/
def execStop (s : State) : Result :=
  writeWord s.cfg.regMap.stop s.cfg.valStop s

/-- `RESET_EVENTS` (R183). -/
def execResetEvents (s : State) : Result :=
  writeWord s.cfg.regMap.resetEvents s.cfg.valResetEvents s

/-- `SYNC` (R184). -/
def execSync (s : State) : Result :=
  writeWord s.cfg.regMap.sync s.cfg.valSync s

/-- `SET_MEASURED_POSITION ticks` (R185). -/
def execSetMeasuredPosition (ticks : Ticks) (s : State) : Result :=
  writeTicks s.cfg.regMap.setMeasuredPosition ticks s

/-- `GOTO_TICKS ticks` (R186). -/
def execGotoTicks (ticks : Ticks) (s : State) : Result :=
  writeTicks s.cfg.regMap.goto ticks s

end Sys2Proof.Machine
end

