-- ==== Sys2Proof/Machine/Dispatch.lean ====
section
/-! DEFINITION. What each instruction does: one arm for each constructor of `Instr`, each a call of its meaning. -/

namespace Sys2Proof.Machine

def exec (i : Instr) (s : State) : Host.Outcome State Fault Refusal :=
  match i with
  | .readReg idx off wc => Sys2Proof.Machine.execReadReg idx off wc s
  | .writeReg idx off wc words => Sys2Proof.Machine.execWriteReg idx off wc words s
  | .gainWriteAccess => Sys2Proof.Machine.execGainWriteAccess s
  | .enableBridge => Sys2Proof.Machine.execEnableBridge s
  | .disableBridge => Sys2Proof.Machine.execDisableBridge s
  | .home => Sys2Proof.Machine.execHome s
  | .stop => Sys2Proof.Machine.execStop s
  | .resetEvents => Sys2Proof.Machine.execResetEvents s
  | .sync => Sys2Proof.Machine.execSync s
  | .setMeasuredPosition ticks => Sys2Proof.Machine.execSetMeasuredPosition ticks s
  | .gotoTicks ticks => Sys2Proof.Machine.execGotoTicks ticks s
  | .getPositionTicks => Sys2Proof.Machine.execGetPositionTicks s
  | .getStatus sel => Sys2Proof.Machine.execGetStatus sel s
  | .getFirmwareInfo => Sys2Proof.Machine.execGetFirmwareInfo s
  | .getProductInfo => Sys2Proof.Machine.execGetProductInfo s
  | .rspOk hdr payload pcrc => Sys2Proof.Machine.execRspOk hdr payload pcrc s
  | .rspErr hdr => Sys2Proof.Machine.execRspErr hdr s

end Sys2Proof.Machine
end

