-- ==== Sys2Proof/Decode.lean ====
section
/-! DEFINITION. Decoding and encoding of frames (spec/30_encoding.md): the rows of the opcode table with their match and mask (R86,
R98), a request frame read back as the row's command, a response read as the parser does (R83, R84), and the encoder of every
instruction (R91). The block itself decodes responses only; nothing in it decodes a request (R91). -/

namespace Sys2Proof

open Sys2Proof.Machine

/-- Why bytes are no frame. -/
inductive DecodeError where
  /-- Fewer than the eight bytes of a header block (R80). -/
  | tooShort
  /-- A request starts with `SOF` and `DEV_ADDR` (R81). -/
  | notRequest
  /-- Bits 7:6 of a request's control byte are 0 (R92). -/
  | reservedBits
  /-- The direction values `00` and `11` are not defined (R92, U1). -/
  | badDirection
  /-- The payload block the word count announces is not whole (R82, R84). -/
  | truncatedPayload
  /-- The header does not match the row of the opcode table (R86). -/
  | rowMismatch
  deriving DecidableEq, Repr

/-- The header of a request with sequence nibble 0, as one number (R81, R86). -/
def requestBits (d : Dir) (idx off wc : Byte) : HeaderWord :=
  headerWord constants.sof constants.devAddr (dirCode d) idx off wc

/-- The header of a request at an address of the register map. -/
def addressBits (d : Dir) (a : Address) (wc : Byte) : HeaderWord :=
  requestBits d a.index a.offset wc

/-- `match` of a row of the opcode table, over the 48-bit header: made of the constants of R6 and the source's register map (R61); a
test holds each against the table's number. -/
def Row.matchBits : Row → HeaderWord
  | .readReg => requestBits .read 0 0 0
  | .writeReg => requestBits .write 0 0 0
  | .gainWriteAccess => addressBits .write RegMap.source.writeAccess constants.regWords
  | .enableBridge => addressBits .write RegMap.source.bridge constants.regWords
  | .disableBridge => addressBits .write RegMap.source.bridge constants.regWords
  | .home => addressBits .write RegMap.source.home constants.regWords
  | .stop => addressBits .write RegMap.source.stop constants.regWords
  | .resetEvents => addressBits .write RegMap.source.resetEvents constants.regWords
  | .sync => addressBits .write RegMap.source.sync constants.regWords
  | .setMeasuredPosition => addressBits .write RegMap.source.setMeasuredPosition constants.tickWords
  | .gotoTicks => addressBits .write RegMap.source.goto constants.tickWords
  | .getPositionTicks => addressBits .read RegMap.source.position constants.tickWords
  | .getStatus => requestBits .read RegMap.source.statusIndex 0 constants.regWords
  | .getFirmwareInfo => addressBits .read RegMap.source.firmware RegMap.source.firmwareWords
  | .getProductInfo => addressBits .read RegMap.source.productInfo RegMap.source.productInfoWords
  | .rspOk => headerWord 0 0 0 constants.statusOk 0 0
  | .rspErr => 0

/-- `mask` of a row of the opcode table. -/
def Row.maskBits : Row → HeaderWord
  | .readReg => 0xFFFFC3000000
  | .writeReg => 0xFFFFC3000000
  | .gainWriteAccess => 0xFFFFC3FFFFFF
  | .enableBridge => 0xFFFFC3FFFFFF
  | .disableBridge => 0xFFFFC3FFFFFF
  | .home => 0xFFFFC3FFFFFF
  | .stop => 0xFFFFC3FFFFFF
  | .resetEvents => 0xFFFFC3FFFFFF
  | .sync => 0xFFFFC3FFFFFF
  | .setMeasuredPosition => 0xFFFFC3FFFFFF
  | .gotoTicks => 0xFFFFC3FFFFFF
  | .getPositionTicks => 0xFFFFC3FFFFFF
  | .getStatus => 0xFFFFC3FF00FF
  | .getFirmwareInfo => 0xFFFFC3FFFFFF
  | .getProductInfo => 0xFFFFC3FFFFFF
  | .rspOk => 0x000000FF0000
  | .rspErr => 0x000000000000

/-- Whether a header belongs to a row: `H & mask = match` (R86). -/
def Row.matchesHeader (r : Row) (h : HeaderWord) : Bool :=
  h &&& r.maskBits == r.matchBits

/-- The header of a frame as one number; `none` when there are fewer than six bytes. -/
def frameHeader : List Byte → Option HeaderWord
  | b0 :: b1 :: b2 :: b3 :: b4 :: b5 :: _ => some (headerWord b0 b1 b2 b3 b4 b5)
  | _ => none

/-- The direction field of a control byte (R81): two of its four values are defined (R92). -/
def decodeDir (d : BitVec 2) : Option Dir :=
  if d = (dirCode .read).setWidth 2 then some .read
  else if d = (dirCode .write).setWidth 2 then some .write
  else none

/-- The sequence nibble of a control byte (R81). -/
def decodeSeq (ctrl : Byte) : Nibble :=
  ctrl.extractLsb' constants.seqShift 4

/-- A request frame read field by field (R81, R82, R85): the sequence nibble, the operands, and the bytes that follow the
frame. The CRC bytes are passed over: they are no part of the operands. -/
def parseRequest : List Byte → Except DecodeError ((Nibble × Request) × List Byte)
  | b0 :: b1 :: b2 :: b3 :: b4 :: b5 :: _ :: _ :: rest =>
    if b0 ≠ constants.sof ∨ b1 ≠ constants.devAddr then .error .notRequest
    else if b2.extractLsb' 6 2 ≠ 0 then .error .reservedBits
    else
      match decodeDir (b2.extractLsb' 0 2) with
      | none => .error .badDirection
      | some .read => .ok ((decodeSeq b2, ⟨.read, b3, b4, b5, none⟩), rest)
      | some .write =>
        if b5 = 0 then .ok ((decodeSeq b2, ⟨.write, b3, b4, b5, none⟩), rest)
        else
          match rest.drop (2 * b5.toNat) with
          | _ :: _ :: tail => .ok ((decodeSeq b2, ⟨.write, b3, b4, b5, some (rest.take (2 * b5.toNat))⟩), tail)
          | _ => .error .truncatedPayload
  | _ => .error .tooShort

/-- The command of a request row whose operands are those of a request (R91); no command for the two response rows. -/
def Row.command (o : PayloadOrder) (row : Row) (r : Request) : Option Instr :=
  match row with
  | .readReg => some (.readReg r.idx r.off r.wc)
  | .writeReg => some (.writeReg r.idx r.off r.wc (bytesToWords o (r.pay.getD [])))
  | .gainWriteAccess => some .gainWriteAccess
  | .enableBridge => some .enableBridge
  | .disableBridge => some .disableBridge
  | .home => some .home
  | .stop => some .stop
  | .resetEvents => some .resetEvents
  | .sync => some .sync
  | .setMeasuredPosition => (bytesToU32 o (r.pay.getD [])).map .setMeasuredPosition
  | .gotoTicks => (bytesToU32 o (r.pay.getD [])).map .gotoTicks
  | .getPositionTicks => some .getPositionTicks
  | .getStatus => some (.getStatus r.off)
  | .getFirmwareInfo => some .getFirmwareInfo
  | .getProductInfo => some .getProductInfo
  | .rspOk => none
  | .rspErr => none

/-- A response read from the bytes of the receive stream (R83, R84, R95): eight bytes, then, when the status flag is 1 and byte 5
is not zero, `2 * wc + 2` more; with any other status flag the eight bytes are all that is consumed (R142). -/
def decodeResponse : List Byte → Except DecodeError (Instr × List Byte)
  | b0 :: b1 :: b2 :: b3 :: b4 :: b5 :: b6 :: b7 :: rest =>
    let h : RspHeader := ⟨b0, b1, b2, b3, b4, b5, wordOf b6 b7⟩
    if b3 ≠ constants.statusOk then .ok (.rspErr h, rest)
    else if b5 = 0 then .ok (.rspOk h [] none, rest)
    else
      match rest.drop (2 * b5.toNat) with
      | c0 :: c1 :: tail => .ok (.rspOk h (rest.take (2 * b5.toNat)) (some (wordOf c0 c1)), tail)
      | _ => .error .truncatedPayload
  | _ => .error .tooShort

/-- The instruction of a frame that is known to be of a given row: rows with identical headers (R91) are told apart by the row.
The instruction and the bytes that follow it. -/
def decodeAs (o : PayloadOrder) (row : Row) (bs : List Byte) : Except DecodeError (Instr × List Byte) :=
  if row.isCommand then
    match parseRequest bs with
    | .error e => .error e
    | .ok ((_, r), rest) =>
      match (frameHeader bs).any row.matchesHeader, row.command o r with
      | true, some i => .ok (i, rest)
      | _, _ => .error .rowMismatch
  else
    match decodeResponse bs with
    | .error e => .error e
    | .ok (i, rest) => if i.row = row then .ok (i, rest) else .error .rowMismatch

/-- The rows of a request in the order `decodeRequest` tries them: the typed commands in the table's order, then the two generic
ones their headers are instances of (R91). -/
def requestRows : List Row :=
  [.gainWriteAccess, .enableBridge, .disableBridge, .home, .stop, .resetEvents, .sync, .setMeasuredPosition, .gotoTicks,
   .getPositionTicks, .getStatus, .getFirmwareInfo, .getProductInfo, .readReg, .writeReg]

/-- The first row of a list that a frame belongs to. -/
def decodeFirst (o : PayloadOrder) (bs : List Byte) : List Row → Except DecodeError (Instr × List Byte)
  | [] => .error .rowMismatch
  | row :: rows =>
    match decodeAs o row bs with
    | .ok x => .ok x
    | .error _ => decodeFirst o bs rows

/-- A request frame alone, with no row given: the first row of `requestRows` it belongs to. The six typed writes on one address
have one header; of those it answers the first. Log entry 8. -/
def decodeRequest (o : PayloadOrder) (bs : List Byte) : Except DecodeError (Instr × List Byte) :=
  match parseRequest bs with
  | .error e => .error e
  | .ok _ => decodeFirst o bs requestRows

/-- Any bytes: a request where they have a request's start byte, address, control byte and length; a response otherwise. -/
def decode (o : PayloadOrder) (bs : List Byte) : Except DecodeError (Instr × List Byte) :=
  match decodeRequest o bs with
  | .ok x => .ok x
  | .error .truncatedPayload => .error .truncatedPayload
  | .error _ => decodeResponse bs

/-- The bytes of a table word: the number `w` is the header `H` of R86, byte 0 in its highest byte (of as many bytes as `nbits`
says, six where it says fewer), and every byte after them is 0, up to the longest frame. -/
def tableBytes (nbits w : Nat) : List Byte :=
  let n := max constants.hdrLen (nbits / 8)
  (List.range n).map (fun k => BitVec.ofNat 8 (w >>> (8 * (n - 1 - k)))) ++ List.replicate (constants.frameMax - n) 0

/-- The instruction the decoder reads from a word of the opcode table. The payload of such a word is zeros, which read the same in
both payload orders. -/
def decodeTableWord (nbits w : Nat) : Option Instr :=
  match decode .le (tableBytes nbits w) with
  | .ok (i, _) => some i
  | .error _ => none

/-- A one-word write as a request (R91). -/
def wordRequest (o : PayloadOrder) (a : Address) (v : Word) : Request :=
  ⟨.write, a.index, a.offset, constants.regWords, some (wordsToBytes o [v])⟩

/-- A two-word write of a tick value as a request (R91). -/
def ticksRequest (o : PayloadOrder) (a : Address) (v : Ticks) : Request :=
  ⟨.write, a.index, a.offset, constants.tickWords, some (u32ToBytes o v)⟩

/-- A read as a request (R91). -/
def readRequest (a : Address) (wc : Byte) : Request :=
  ⟨.read, a.index, a.offset, wc, none⟩

/-- The request each command produces, the table of R91; none for the two response formats. -/
def Instr.request (cfg : Config) : Instr → Option Request
  | .readReg idx off wc => some ⟨.read, idx, off, wc, none⟩
  | .writeReg idx off wc words =>
    some ⟨.write, idx, off, wc, if wc = 0 then none else some (wordsToBytes cfg.payloadOrder words)⟩
  | .gainWriteAccess => some (wordRequest cfg.payloadOrder cfg.regMap.writeAccess cfg.valWriteAccess)
  | .enableBridge => some (wordRequest cfg.payloadOrder cfg.regMap.bridge cfg.valBridgeEnable)
  | .disableBridge => some (wordRequest cfg.payloadOrder cfg.regMap.bridge cfg.valBridgeDisable)
  | .home => some (wordRequest cfg.payloadOrder cfg.regMap.home cfg.valHome)
  | .stop => some (wordRequest cfg.payloadOrder cfg.regMap.stop cfg.valStop)
  | .resetEvents => some (wordRequest cfg.payloadOrder cfg.regMap.resetEvents cfg.valResetEvents)
  | .sync => some (wordRequest cfg.payloadOrder cfg.regMap.sync cfg.valSync)
  | .setMeasuredPosition ticks => some (ticksRequest cfg.payloadOrder cfg.regMap.setMeasuredPosition ticks)
  | .gotoTicks ticks => some (ticksRequest cfg.payloadOrder cfg.regMap.goto ticks)
  | .getPositionTicks => some (readRequest cfg.regMap.position constants.tickWords)
  | .getStatus sel => some (readRequest ⟨cfg.regMap.statusIndex, sel⟩ constants.regWords)
  | .getFirmwareInfo => some (readRequest cfg.regMap.firmware cfg.regMap.firmwareWords)
  | .getProductInfo => some (readRequest cfg.regMap.productInfo cfg.regMap.productInfoWords)
  | .rspOk _ _ _ => none
  | .rspErr _ => none

/-- The frame of an instruction: for a command, the request frame with a given sequence nibble; for a response, its bytes. -/
def encode (cfg : Config) (seq : Nibble) (i : Instr) : List Byte :=
  match i with
  | .rspOk hdr payload pcrc => responseBytes hdr payload pcrc
  | .rspErr hdr => responseBlock hdr
  | i =>
    match i.request cfg with
    | some r => encodeRequest seq r
    | none => []

end Sys2Proof
end

