-- ==== Sys2Proof/Machine/Fetch.lean ====
section
/-! DEFINITION. Where the next instruction comes from. The block fetches no instructions from a memory (spec/10_state.md R27): the
caller hands it commands and the line brings it bytes, one input after the other. -/

namespace Sys2Proof.Machine

/-- What the next step does: run an instruction in a state, or something that is no instruction, with its outcome. -/
inductive Fetched where
  | run (i : Instr) (s : State)
  | other (o : Result)

/-- The inputs left when a whole response has been taken from the front of a frame input: the bytes behind it count as not yet arrived
and stay the next input. The spec does not say how bytes are split between arrivals, and R147 speaks of bytes that have arrived, so
this is the model's choice; where a second half of `SYNC_POSITION` is due its purge comes before those bytes. DESIGN CHOICE, log
entry 30. -/
def putBack (tail : List Byte) (rest : List Input) : List Input :=
  match tail with
  | [] => rest
  | b :: bs => .frame (b :: bs) :: rest

/-- The next input is taken (R194, R216, R241, R97). With none to take, the block does the next primitive of the command in
flight, or nothing when it is idle. Bytes that form a whole response are decoded to it; other bytes arrive as they are.
`SYNC_POSITION` begins with its first command, and its second half is still to come. -/
def fetchInput (s : State) : Fetched :=
  match s.inbox with
  | [] => .other (tick s)
  | .command i :: rest => .run i { s with inbox := rest }
  | .frame bs :: rest =>
    match decodeResponse bs with
    | .ok (i, tail) => .run i { s with inbox := putBack tail rest }
    | .error _ => .other (arrive bs { s with inbox := rest })
  | .reset :: rest => .other (.next (resetBlock { s with inbox := rest }))
  | .syncPosition ticks :: rest => .run (.setMeasuredPosition ticks) { s with inbox := rest, syncPending := true }

/-- The second half of `SYNC_POSITION` (R97): `SYNC` if the result of the first command was `Ok`, nothing otherwise. -/
def secondHalf (s : State) : Fetched :=
  if s.res = some .ok then .run .sync { s with syncPending := false } else .other (.next { s with syncPending := false })

/-- Whether the second half of `SYNC_POSITION` is what comes next: it is still to come and the block is idle. -/
def secondHalfDue (s : State) : Bool :=
  s.syncPending && s.ph == .idle

/-- What the next step does. While the first command of a `SYNC_POSITION` is in flight inputs are taken as ever, so that its response
or a reset can reach it; once it has ended, the second half comes before any further input. The spec fixes no order of the two, so
this is the model's choice (R60, R97). DESIGN CHOICE, log entry 25. -/
def fetch (s : State) : Fetched :=
  if secondHalfDue s then secondHalf s else fetchInput s

/-- An input put in front of the others, where the next step takes it: a second half that is due, which would come before it, is
dropped. -/
def placeInput (x : Input) (s : State) : State :=
  { s with inbox := x :: s.inbox, syncPending := s.syncPending && !secondHalfDue s }

/-- An instruction put in front of the inputs: a command from the caller, or the bytes of a response. -/
def placeInstr (i : Instr) (s : State) : State :=
  placeInput (if i.isCommand then .command i else .frame (encode s.cfg s.seq i)) s

/-- A word of the opcode table put where the next step takes its input. -/
def placeTableWord (nbits w : Nat) (s : State) : State :=
  match decodeTableWord nbits w with
  | some i => placeInstr i s
  | none => placeInput (.frame (tableBytes nbits w)) s

end Sys2Proof.Machine
end

