-- ==== Sys2Proof/Machine/Step.lean ====
section
/-! DEFINITION. One step of the machine: take the next input and run it, or do the next primitive of the command in flight. -/

namespace Sys2Proof.Machine

/-- One step. -/
def step (s : State) : Host.Outcome State Fault Refusal :=
  match fetch s with
  | .run i t => exec i t
  | .other o => o

/-- The state with a word of the opcode table as the next input. -/
def State.withFetchWord (s : State) (nbits w : Nat) : State :=
  placeTableWord nbits w s

end Sys2Proof.Machine
end

