-- ==== Sys2Proof/Machine/Results.lean ====
section
/-! DEFINITION. The caller's reads of the result registers and of the diagnostic registers (spec/10_state.md R28, R31, R35;
spec/42_register_commands.md R194; spec/70_reset_and_hazards.md R254). They are reads of an idle block: while a command is in flight
there is no read of partial results. A register that holds no value is not read as zero: the read is a fault (R34, U15). -/

namespace Sys2Proof.Machine

/-- What a read of the caller gives. A read is no step: it leaves the block as it is, whatever it gives. -/
inductive Read (α : Type) where
  | value (a : α)
  /-- The element holds no value: it has the type "absent", and the read is the fault of the model of R34 and U15, never a zero. -/
  | fault (absent : Element)
  | refused (r : Refusal)
  deriving DecidableEq, Repr

/-- A read of an element that may hold no value (R34, U15). -/
def readElement {α : Type} (e : Element) (v : Option α) : Read α :=
  match v with
  | some a => .value a
  | none => .fault e

/-- A read the caller may do only while `PH = Idle` (R35, R194, R254). The spec forbids it in flight and gives it no value; the model
refuses it. DESIGN CHOICE, log entry 28. -/
def whileIdle {α : Type} (s : State) (r : Read α) : Read α :=
  if s.ph = .idle then r else .refused .readInFlight

/-- A read of a result register (R31). -/
def readResult {α : Type} (e : Element) (v : Option α) (s : State) : Read α :=
  whileIdle s (readElement e v)

/-- A read of a diagnostic register: it has no value unless its `_VALID` bit is 1 (R28, U15). -/
def readDiagnostic {α : Type} (e : Element) (valid : Bool) (v : Option α) (s : State) : Read α :=
  whileIdle s (if valid then readElement e v else .fault e)

/-- `BUSY`, the derived signal `PH != Idle` (R27), which the caller may read at any time (R35). -/
def busy (s : State) : Bool :=
  s.ph != .idle

/-- The caller reads `RES`. -/
def callerRes (s : State) : Read ResultCode :=
  readResult .res s.res s

/-- The caller reads `RVAL`. -/
def callerRval (s : State) : Read Value :=
  readResult .rval s.rval s

/-- The caller reads `RFRAME`. -/
def callerRframe (s : State) : Read Frame :=
  readResult .rframe s.rframe s

/-- The caller reads `HCRC_VALID`. -/
def callerHcrcValid (s : State) : Read Bool :=
  whileIdle s (.value s.hcrcValid)

/-- The caller reads `HCRC_CALC`. -/
def callerHcrcCalc (s : State) : Read Word :=
  readDiagnostic .headerCrc s.hcrcValid s.hcrcCalc s

/-- The caller reads `HCRC_RECV`. -/
def callerHcrcRecv (s : State) : Read Word :=
  readDiagnostic .headerCrc s.hcrcValid s.hcrcRecv s

/-- The caller reads `HCRC_OK`. -/
def callerHcrcOk (s : State) : Read Bool :=
  readDiagnostic .headerCrc s.hcrcValid s.hcrcOk s

/-- The caller reads `PCRC_VALID`. -/
def callerPcrcValid (s : State) : Read Bool :=
  whileIdle s (.value s.pcrcValid)

/-- The caller reads `PCRC_CALC`. -/
def callerPcrcCalc (s : State) : Read Word :=
  readDiagnostic .payloadCrc s.pcrcValid s.pcrcCalc s

/-- The caller reads `PCRC_RECV`. -/
def callerPcrcRecv (s : State) : Read Word :=
  readDiagnostic .payloadCrc s.pcrcValid s.pcrcRecv s

/-- The caller reads `PCRC_OK`. -/
def callerPcrcOk (s : State) : Read Bool :=
  readDiagnostic .payloadCrc s.pcrcValid s.pcrcOk s

/-- The numeric result codes of R211; the numbers matter only to a numeric result port. -/
def resultNumber (r : ResultCode) : Nat :=
  match r with
  | .ok => 0
  | .notConnected => 1
  | .transportError => 2
  | .timeout => 3
  | .badResponse => 4
  | .commandFailed => 5
  | .crcMismatch => 6

end Sys2Proof.Machine
end

