-- ==== Sys2Proof/Safety.lean ====
section
/-! DEFINITION. The terms the statements use: what a transport that carries an exchange through answers, what a command leaves in
every register when it ends, the order of events, and the invariant of the block. -/

/-- The hardware of this model, by the name spec/00_scope.md R2 gives it (D21); it carries no version. -/
abbrev Sys2Proof.AMCDriveFrameBlock : Host.Core :=
  Sys2Proof.core

namespace Sys2Proof.Machine

/-- What each command's rule does with the decoded frame (R173, R175, R187, R189). -/
def returnOf : Instr → Return
  | .readReg _ _ _ => .payload
  | .writeReg _ _ _ _ => .nothing
  | .gainWriteAccess => .nothing
  | .enableBridge => .nothing
  | .disableBridge => .nothing
  | .home => .nothing
  | .stop => .nothing
  | .resetEvents => .nothing
  | .sync => .nothing
  | .setMeasuredPosition _ => .nothing
  | .gotoTicks _ => .nothing
  | .getPositionTicks => .ticks
  | .getStatus _ => .word
  | .getFirmwareInfo => .payload
  | .getProductInfo => .payload
  | .rspOk _ _ _ => .nothing
  | .rspErr _ => .nothing

/-- A command the block accepts in a state: well formed, issued to an idle block (R194), with the request `r` of R91. -/
structure Accepted (i : Instr) (s : State) (r : Request) : Prop where
  wf : i.wf = true
  idle : s.ph = .idle
  request : i.request s.cfg = some r

/-- The transport is ready to carry an exchange through (R14): the purge succeeds, a frame of `len` bytes is taken whole, and the
reads that follow are answered with `reads`, in order. What the receive side held before is not constrained. -/
structure Ready (s : State) (len : Nat) (reads : List ReadAnswer) : Prop where
  purge : s.line.purges.head? = some .ok
  write : s.line.writes.head? = some (.written len)
  arrives : s.line.later.headD [] = reads

/-- The reads that deliver a byte string. -/
def delivers (bs : List Byte) : List ReadAnswer :=
  bs.map .byte

/-- The events of an exchange whose request `f` was taken whole and whose reads were answered with `reads` (R63, R196). -/
def exchangeEvents (f : List Byte) (reads : List ReadAnswer) : List Event :=
  [.purge .ok, .tx f (.written f.length), .flush] ++ reads.map .rx

/-- The received CRCs are right where the configuration enforces them (R141, R145). -/
def CrcsAccepted (cfg : Config) (h : RspHeader) (payload : List Byte) (pcrc : Option Word) : Prop :=
  cfg.verifyResponseCrc = true →
    crc16 (responseHeader h) = h.hcrc ∧ ∀ c, pcrc = some c → crc16 payload = c

/-- What accepting a command and sending its request leaves, whatever the response is: from `s`, the command ended in `t`, having
sent the request `r` whole and having been answered `reads`, with `rest` not asked for. -/
structure Exchanged (s t : State) (r : Request) (ret : Return) (reads rest : List ReadAnswer) : Prop where
  cfg : t.cfg = s.cfg
  seq : t.seq = s.seq + 1
  ph : t.ph = .idle
  txBuf : t.txBuf = encodeRequest s.seq r ++ s.txBuf.drop (encodeRequest s.seq r).length
  txLen : t.txLen = (encodeRequest s.seq r).length
  op : t.op = some ⟨r.dir, s.seq, r.idx, r.off, r.wc, r.pay.getD [], r.pay.isSome⟩
  ret : t.ret = ret
  trace : t.trace = s.trace ++ exchangeEvents (encodeRequest s.seq r) reads
  line : t.line = ⟨s.line.purges.tail, s.line.writes.tail, rest, s.line.later.tail⟩
  inbox : t.inbox = s.inbox
  syncPending : t.syncPending = s.syncPending

/-- The value `RVAL` takes from the payload of an accepted response (R31, R173, R175, R187, R189); the outer `none` where a typed
read has no value because the payload is too short (R188). -/
def resultValue (ret : Return) (o : PayloadOrder) (payload : List Byte) : Option (Option Value) :=
  match ret with
  | .nothing => some none
  | .payload => some (some (.bytes payload))
  | .word => (bytesToU16 o payload).map (fun v => some (.u16 v))
  | .ticks => (bytesToU32 o payload).map (fun v => some (.u32 v))

/-- The header block `h` has been received, and its diagnostic recorded (R138, R140). -/
structure HeaderTaken (s t : State) (h : RspHeader) : Prop where
  rxHdr : t.rxHdr = responseBlock h ++ s.rxHdr.drop 8
  rxHCnt : t.rxHCnt = 8
  hcrcCalc : t.hcrcCalc = some (crc16 (responseHeader h))
  hcrcRecv : t.hcrcRecv = some h.hcrc
  hcrcOk : t.hcrcOk = some (crc16 (responseHeader h) == h.hcrc)
  hcrcValid : t.hcrcValid = true

/-- No header block has been received whole: the diagnostic holds what it held, marked as not valid (R170). -/
structure NoHeader (s t : State) : Prop where
  hcrcCalc : t.hcrcCalc = s.hcrcCalc
  hcrcRecv : t.hcrcRecv = s.hcrcRecv
  hcrcOk : t.hcrcOk = s.hcrcOk
  hcrcValid : t.hcrcValid = false

/-- No payload block has been asked for: its registers hold what they held, its counters are 0 (R137, R142). -/
structure NoPayload (s t : State) : Prop where
  rxPay : t.rxPay = s.rxPay
  rxPLen : t.rxPLen = 0
  rxPCnt : t.rxPCnt = 0
  rxPCrc : t.rxPCrc = s.rxPCrc
  rxCCnt : t.rxCCnt = 0
  pcrcCalc : t.pcrcCalc = s.pcrcCalc
  pcrcRecv : t.pcrcRecv = s.pcrcRecv
  pcrcOk : t.pcrcOk = s.pcrcOk
  pcrcValid : t.pcrcValid = false

/-- The payload block has been received whole, and its diagnostic recorded (R143, R144). -/
structure PayloadTaken (s t : State) (payload : List Byte) (c : Word) : Prop where
  rxPay : t.rxPay = payload ++ s.rxPay.drop payload.length
  rxPLen : t.rxPLen = payload.length
  rxPCnt : t.rxPCnt = payload.length
  rxPCrc : t.rxPCrc = be16 c ++ s.rxPCrc.drop 2
  rxCCnt : t.rxCCnt = 2
  pcrcCalc : t.pcrcCalc = some (crc16 payload)
  pcrcRecv : t.pcrcRecv = some c
  pcrcOk : t.pcrcOk = some (crc16 payload == c)
  pcrcValid : t.pcrcValid = true
  crcAcc : t.crcAcc = some (crc16 payload)

/-- The payload registers after a response with the given payload and payload CRC. -/
def PayloadRegisters (s t : State) (h : RspHeader) (payload : List Byte) (pcrc : Option Word) : Prop :=
  match pcrc with
  | none => NoPayload s t ∧ t.crcAcc = some (crc16 (responseHeader h))
  | some c => PayloadTaken s t payload c

/-- The result registers (R31). -/
structure Results (t : State) (res : ResultCode) (rval : Option Value) (rframe : Option Frame) : Prop where
  res : t.res = some res
  rval : t.rval = rval
  rframe : t.rframe = rframe

/-- A command whose request is `r` ended in `t` with the whole response `h`, `payload`, `pcrc` accepted: every register. -/
structure Completed (s t : State) (r : Request) (ret : Return) (h : RspHeader) (payload : List Byte) (pcrc : Option Word)
    (rval : Option Value) (rest : List ReadAnswer) : Prop where
  exchange : Exchanged s t r ret (delivers (responseBytes h payload pcrc)) rest
  header : HeaderTaken s t h
  payloadRegisters : PayloadRegisters s t h payload pcrc
  results : Results t .ok rval (some ⟨h, payload, pcrc⟩)

/-- A command whose response is well formed and acceptable, on a transport that carries the exchange through. -/
structure Answered (i : Instr) (s : State) (r : Request) (h : RspHeader) (payload : List Byte) (pcrc : Option Word)
    (rest : List ReadAnswer) : Prop where
  accepted : Accepted i s r
  response : (Instr.rspOk h payload pcrc).wf = true
  crcs : CrcsAccepted s.cfg h payload pcrc
  ready : Ready s (encodeRequest s.seq r).length (delivers (responseBytes h payload pcrc) ++ rest)

/-- The parser has been started and asks for its first byte, with nothing received yet (R137): a command is in flight, its results are
cleared (R170), and the receive side holds nothing. -/
structure Receiving (s : State) : Prop where
  ph : s.ph = .rxHeader
  rxHCnt : s.rxHCnt = 0
  rxPLen : s.rxPLen = 0
  rxPCnt : s.rxPCnt = 0
  rxCCnt : s.rxCCnt = 0
  hcrcValid : s.hcrcValid = false
  pcrcValid : s.pcrcValid = false
  rval : s.rval = none
  rx : s.line.rx = []

/-- What the arrival of a response at a waiting parser leaves, whatever the response is: the command ended in `t`, every byte was read
as one event, and what belongs to the request is untouched. -/
structure Received (s t : State) (bs : List Byte) : Prop where
  cfg : t.cfg = s.cfg
  seq : t.seq = s.seq
  ph : t.ph = .idle
  txBuf : t.txBuf = s.txBuf
  txLen : t.txLen = s.txLen
  op : t.op = s.op
  ret : t.ret = s.ret
  trace : t.trace = s.trace ++ (delivers bs).map .rx
  line : t.line = s.line
  inbox : t.inbox = s.inbox
  syncPending : t.syncPending = s.syncPending

/-- The events of one kind. -/
def Event.isPurge : Event → Bool
  | .purge _ => true
  | .tx _ _ => false
  | .flush => false
  | .rx _ => false

/-- A call of `T.write`. -/
def Event.isTx : Event → Bool
  | .purge _ => false
  | .tx _ _ => true
  | .flush => false
  | .rx _ => false

/-- A call of `T.flush`. -/
def Event.isFlush : Event → Bool
  | .purge _ => false
  | .tx _ _ => false
  | .flush => true
  | .rx _ => false

/-- A call of `T.read1`. -/
def Event.isRx : Event → Bool
  | .purge _ => false
  | .tx _ _ => false
  | .flush => false
  | .rx _ => true

/-- No more calls of the primitives than one transaction makes (R195). -/
structure WithinOneTransaction (es : List Event) : Prop where
  purges : es.countP Event.isPurge ≤ 1
  writes : es.countP Event.isTx ≤ 1
  flushes : es.countP Event.isFlush ≤ 1
  reads : es.countP Event.isRx ≤ 520

/-- The transport answers every primitive a command can call (R195): the purge, the write if it comes to that, and as many reads as
the longest response takes. -/
structure Answers (s : State) : Prop where
  purge : s.line.purges ≠ []
  write : s.line.writes ≠ []
  reads : 520 ≤ (s.line.later.headD []).length

/-- The moves of the phase register (R27). -/
def phaseMoves : List (Phase × Phase) :=
  [(.idle, .idle), (.purging, .sending), (.purging, .idle), (.sending, .flushing), (.sending, .idle), (.flushing, .rxHeader),
   (.rxHeader, .rxHeader), (.rxHeader, .rxPayload), (.rxHeader, .idle), (.rxPayload, .rxPayload), (.rxPayload, .idle)]

/-- The result code of a failing answer of `T.read1` (R139, R143). -/
def readError : ReadAnswer → Option ResultCode
  | .byte _ => none
  | .noData => some .timeout
  | .ioError => some .transportError

/-- Zero or more reads. -/
def OnlyReads (es : List Event) : Prop :=
  ∀ e ∈ es, ∃ a, e = .rx a

/-- The events of one command, in the only order R63 (b) and (c) allow: a purge; after a successful one the request, in one call; after
it was taken whole the flush; after the flush the reads. A command still in flight shows a beginning of it. -/
inductive CommandEvents (f : List Byte) : List Event → Prop where
  | unanswered : CommandEvents f []
  | purgeFailed : CommandEvents f [.purge .ioError]
  | purged : CommandEvents f [.purge .ok]
  | writeFailed (a : WriteAnswer) (h : a ≠ .written f.length) : CommandEvents f [.purge .ok, .tx f a]
  | sent (es : List Event) (h : OnlyReads es) :
      CommandEvents f ([.purge .ok, .tx f (.written f.length), .flush] ++ es)

/-- The state a run has when a step answered it: the next state, or the state a short payload leaves behind. -/
def stateOf : Result → Option State
  | .next t => some t
  | .fault (.shortPayload t) => some t
  | .fault .transportStuck => none
  | .refused _ => none

/-- The next step accepts a command (R171, R194): the block is idle, and either the second half of a `SYNC_POSITION` is due and the
first half ended with `Ok`, or none is due and the next input is a well-formed command or a `SYNC_POSITION`. -/
def AcceptsCommand (s : State) : Prop :=
  s.ph = .idle ∧
    if s.syncPending then s.res = some .ok
    else (∃ i rest, s.inbox = .command i :: rest ∧ i.isCommand = true ∧ i.wf = true) ∨
      ∃ ticks rest, s.inbox = .syncPosition ticks :: rest

/-- The next step takes a reset (R241). -/
def TakesReset (s : State) : Prop :=
  secondHalfDue s = false ∧ s.inbox.head? = some .reset

/-- The events a run from `s` to `t` appended to the trace. -/
def newEvents (s t : State) : List Event :=
  t.trace.drop s.trace.length

/-- Two states that an earlier command cannot have made different for a later one (R29, R66): the same configuration, sequence
counter, phase, and answers of the transport but for what its receive side still holds. -/
structure SameForCommands (a b : State) : Prop where
  cfg : a.cfg = b.cfg
  seq : a.seq = b.seq
  ph : a.ph = b.ph
  purges : a.line.purges = b.line.purges
  writes : a.line.writes = b.line.writes
  later : a.line.later = b.line.later

/-- What a caller and an observer of the line can tell of a command that ended (R16), and the diagnostic registers (R28). -/
structure SameOutcome (a a' b b' : State) : Prop where
  seq : a'.seq = b'.seq
  ph : a'.ph = b'.ph
  res : a'.res = b'.res
  rval : a'.rval = b'.rval
  rframe : a'.rframe = b'.rframe
  events : newEvents a a' = newEvents b b'
  hcrcValid : a'.hcrcValid = b'.hcrcValid
  pcrcValid : a'.pcrcValid = b'.pcrcValid
  hcrc : a'.hcrcValid = true → (a'.hcrcCalc, a'.hcrcRecv, a'.hcrcOk) = (b'.hcrcCalc, b'.hcrcRecv, b'.hcrcOk)
  pcrc : a'.pcrcValid = true → (a'.pcrcCalc, a'.pcrcRecv, a'.pcrcOk) = (b'.pcrcCalc, b'.pcrcRecv, b'.pcrcOk)

/-- The bounds of the buffers and counters (R22 to R26). -/
structure Bounded (s : State) : Prop where
  tx : s.txLen ≤ s.txBuf.length ∧ s.txBuf.length ≤ constants.frameMax
  rxHdr : s.rxHCnt ≤ s.rxHdr.length ∧ s.rxHdr.length ≤ constants.hdrBlkLen
  rxPay : s.rxPCnt ≤ s.rxPay.length ∧ s.rxPay.length ≤ constants.payMax
  rxPLen : s.rxPCnt ≤ s.rxPLen ∧ s.rxPLen ≤ constants.payMax
  rxPCrc : s.rxCCnt ≤ s.rxPCrc.length ∧ s.rxPCrc.length ≤ 2
  latches : ∀ op, s.op = some op → op.request.wf = true ∧ op.pay.length ≤ constants.payMax

/-- Where the block stands agrees with its counters and latches (R27, R137 to R144). -/
structure PhaseAgrees (s : State) : Prop where
  inFlight : s.ph ≠ .idle → s.op.isSome = true ∧ s.res = none
  sending : s.ph = .sending ∨ s.ph = .flushing → ∀ op, s.op = some op → txFrame s = encodeRequest op.seq op.request
  unread : s.ph = .purging ∨ s.ph = .sending ∨ s.ph = .flushing ∨ s.ph = .rxHeader →
    s.hcrcValid = false ∧ s.pcrcValid = false
  header : s.ph = .rxHeader → s.rxHCnt < 8 ∧ s.rxPLen = 0 ∧ s.rxPCnt = 0 ∧ s.rxCCnt = 0
  payload : s.ph = .rxPayload →
    s.rxHCnt = 8 ∧ s.hcrcValid = true ∧ s.pcrcValid = false ∧ hdrByte s 3 = constants.statusOk ∧ s.rxPLen = 2 * (hdrByte s 5).toNat ∧
      0 < s.rxPLen ∧ s.rxCCnt < 2 ∧ (s.rxPCnt < s.rxPLen → s.rxCCnt = 0)

/-- The result registers agree with each other (R31, R210, R214): no value and no frame without `Ok`, a frame with it, none of the
codes the block never raises, `CrcMismatch` only when it is configured. -/
structure ResultsAgree (s : State) : Prop where
  absent : s.res ≠ some .ok → s.rval = none ∧ s.rframe = none
  frame : s.res = some .ok → s.rframe.isSome = true
  codes : s.res ≠ some .notConnected ∧ s.res ≠ some .commandFailed
  enforced : s.res = some .crcMismatch → s.cfg.verifyResponseCrc = true

/-- The diagnostic registers hold what their `_VALID` bits promise (R28). -/
structure DiagnosticsAgree (s : State) : Prop where
  header : s.hcrcValid = true →
    s.hcrcCalc = some (crc16 (rxHeaderBytes s)) ∧ s.hcrcRecv = some (rxHeaderCrc s) ∧
      s.hcrcOk = some (crc16 (rxHeaderBytes s) == rxHeaderCrc s)
  payload : s.pcrcValid = true →
    s.pcrcCalc = some (crc16 (rxPayloadBytes s)) ∧ s.pcrcRecv = some (rxPayloadCrc s) ∧
      s.pcrcOk = some (crc16 (rxPayloadBytes s) == rxPayloadCrc s)

/-- The invariant of the block: what every state a run reaches satisfies. -/
structure State.Inv (s : State) : Prop where
  bounded : Bounded s
  phase : PhaseAgrees s
  results : ResultsAgree s
  diagnostics : DiagnosticsAgree s

end Sys2Proof.Machine
end

