-- ==== Sys2Proof/Certificates/Slice0/Obligations.lean ====
section
/-! DEFINITION. The statements about the model, each a proposition for the provers. -/

open Sys2Proof Sys2Proof.Machine

/-- The checksum has the two check values the source states (R116). -/
def Obligations.CrcCheckValues : Prop :=
  crc16 [] = 0x0000 ∧ crc16 [0x31, 0x32, 0x33, 0x34, 0x35, 0x36, 0x37, 0x38, 0x39] = 0x31C3

/-- The byte-parallel form of CRC_BYTE equals the bit-serial form (R114). -/
def Obligations.CrcParallelFormAgrees : Prop :=
  ∀ (acc : Word) (b : Byte), crcByteParallel acc b = crcByte acc b

/-- The table form of CRC_BYTE equals the bit-serial form, and the table has the listed entries (R115). -/
def Obligations.CrcTableFormAgrees : Prop :=
  (∀ t : Byte, crcTable t = crc16 [t]) ∧
  (∀ (acc : Word) (b : Byte), crcByteTable acc b = crcByte acc b) ∧
  (List.range 16).map (fun t => crcTable (BitVec.ofNat 8 t)) =
    [0x0000, 0x1021, 0x2042, 0x3063, 0x4084, 0x50A5, 0x60C6, 0x70E7, 0x8108, 0x9129, 0xA14A, 0xB16B, 0xC18C, 0xD1AD,
     0xE1CE, 0xF1EF] ∧
  crcTable 0x80 = 0x9188 ∧ crcTable 0xFF = 0x1EF0

/-- Leading zeros do not change a checksum, data with its checksum leaves residue zero, and the checksum is linear (R117). -/
def Obligations.CrcZeroResidueAndLinearity : Prop :=
  (∀ s : List Byte, crc16 (0 :: s) = crc16 s) ∧
  (∀ n : Nat, crc16 (List.replicate n 0) = 0) ∧
  (∀ s : List Byte, crc16 (s ++ be16 (crc16 s)) = 0) ∧
  (∀ (s : List Byte) (c : Word), crc16 (s ++ be16 c) = 0 ↔ crc16 s = c) ∧
  (∀ s t : List Byte, s.length = t.length → crc16 (List.zipWith (· ^^^ ·) s t) = crc16 s ^^^ crc16 t)

/-- Payload words and 32-bit values read back as they were written, in both byte orders (R89, R90). -/
def Obligations.PayloadOrdersReadBackWhatTheyWrite : Prop :=
  (∀ v : Ticks, u32ToBytes .le v = wordsToBytes .le [loWord v, hiWord v] ∧ u32ToBytes .be v = wordsToBytes .be [hiWord v, loWord v]) ∧
  (∀ (o : PayloadOrder) (w : Word) (ws : List Word) (rest : List Byte), bytesToU16 o (wordsToBytes o (w :: ws) ++ rest) = some w) ∧
  (∀ (o : PayloadOrder) (v : Ticks) (rest : List Byte), bytesToU32 o (u32ToBytes o v ++ rest) = some v) ∧
  (∀ (o : PayloadOrder) (ws : List Word), bytesToWords o (wordsToBytes o ws) = ws ∧ (wordsToBytes o ws).length = 2 * ws.length) ∧
  (∀ (o : PayloadOrder) (p : List Byte), (bytesToU16 o p = none ↔ p.length < 2) ∧ (bytesToU32 o p = none ↔ p.length < 4))

/-- The first eight bytes of every request, field by field (R81, R87). -/
def Obligations.RequestHeaderBlockIsLaidOut : Prop :=
  ∀ (seq : Nibble) (r : Request), ∃ ctrl : Byte,
    (encodeRequest seq r).take 8 =
      [0xA5, 0x3F, ctrl, r.idx, r.off, r.wc] ++ be16 (crc16 [0xA5, 0x3F, ctrl, r.idx, r.off, r.wc]) ∧
    ctrl.extractLsb' 6 2 = 0 ∧ ctrl.extractLsb' 2 4 = seq ∧
    ctrl.extractLsb' 0 2 = (match r.dir with | .read => 1 | .write => 2) ∧
    ctrl.toNat = (match r.dir with | .read => 1 | .write => 2) + 4 * seq.toNat ∧ ctrl.toNat ≤ 0x3E

/-- The length of the frame the encoder builds (R134). -/
def Obligations.RequestLengthFollowsThePayload : Prop :=
  ∀ (seq : Nibble) (r : Request),
    (r.pay.getD [] = [] → (encodeRequest seq r).length = 8) ∧
    (r.pay.getD [] ≠ [] → (encodeRequest seq r).length = 10 + (r.pay.getD []).length) ∧
    (r.wf = true →
      (r.dir = .read → (encodeRequest seq r).length = 8) ∧
      (r.dir = .write → r.wc = 0 → (encodeRequest seq r).length = 8) ∧
      (r.dir = .write → r.wc ≠ 0 → (encodeRequest seq r).length = 10 + 2 * r.wc.toNat))

/-- What follows the header block of a request (R80, R82, R85). -/
def Obligations.RequestPayloadBlockFollowsTheHeader : Prop :=
  ∀ (seq : Nibble) (r : Request), r.wf = true →
    (r.dir = .write → r.wc ≠ 0 → ∃ p, r.pay = some p ∧ p.length = 2 * r.wc.toNat ∧
      (encodeRequest seq r).drop 8 = p ++ be16 (crc16 p)) ∧
    (r.dir = .read ∨ r.wc = 0 → (encodeRequest seq r).drop 8 = []) ∧
    (encodeRequest seq r).length ≤ 520

/-- The request frame of each of the fifteen commands under the source's register map (R91, R61). -/
def Obligations.CommandsSendTheirMappedRequests : Prop :=
  ∀ (cfg : Config) (seq : Nibble), cfg.regMap = RegMap.source →
    let rd : Byte := 0x01 ||| (seq.setWidth 8 <<< 2)
    let wr : Byte := 0x02 ||| (seq.setWidth 8 <<< 2)
    let words := wordsToBytes cfg.payloadOrder
    let ticks := u32ToBytes cfg.payloadOrder
    (∀ idx off wc, encode cfg seq (.readReg idx off wc) = withCrc [0xA5, 0x3F, rd, idx, off, wc]) ∧
    (∀ idx off ws, encode cfg seq (.writeReg idx off 0 ws) = withCrc [0xA5, 0x3F, wr, idx, off, 0]) ∧
    (∀ idx off wc w ws, wc ≠ 0 → encode cfg seq (.writeReg idx off wc (w :: ws)) =
      withCrc [0xA5, 0x3F, wr, idx, off, wc] ++ withCrc (words (w :: ws))) ∧
    encode cfg seq .gainWriteAccess = withCrc [0xA5, 0x3F, wr, 0x07, 0x00, 1] ++ withCrc (words [cfg.valWriteAccess]) ∧
    encode cfg seq .enableBridge = withCrc [0xA5, 0x3F, wr, 0x01, 0x00, 1] ++ withCrc (words [cfg.valBridgeEnable]) ∧
    encode cfg seq .disableBridge = withCrc [0xA5, 0x3F, wr, 0x01, 0x00, 1] ++ withCrc (words [cfg.valBridgeDisable]) ∧
    encode cfg seq .home = withCrc [0xA5, 0x3F, wr, 0x01, 0x00, 1] ++ withCrc (words [cfg.valHome]) ∧
    encode cfg seq .stop = withCrc [0xA5, 0x3F, wr, 0x01, 0x00, 1] ++ withCrc (words [cfg.valStop]) ∧
    encode cfg seq .resetEvents = withCrc [0xA5, 0x3F, wr, 0x01, 0x00, 1] ++ withCrc (words [cfg.valResetEvents]) ∧
    encode cfg seq .sync = withCrc [0xA5, 0x3F, wr, 0x01, 0x00, 1] ++ withCrc (words [cfg.valSync]) ∧
    (∀ v, encode cfg seq (.setMeasuredPosition v) = withCrc [0xA5, 0x3F, wr, 0x39, 0x00, 2] ++ withCrc (ticks v)) ∧
    (∀ v, encode cfg seq (.gotoTicks v) = withCrc [0xA5, 0x3F, wr, 0x45, 0x00, 2] ++ withCrc (ticks v)) ∧
    encode cfg seq .getPositionTicks = withCrc [0xA5, 0x3F, rd, 0x12, 0x00, 2] ∧
    (∀ sel, encode cfg seq (.getStatus sel) = withCrc [0xA5, 0x3F, rd, 0x02, sel, 1]) ∧
    encode cfg seq .getFirmwareInfo = withCrc [0xA5, 0x3F, rd, 0x0B, 0x00, 0x80] ∧
    encode cfg seq .getProductInfo = withCrc [0xA5, 0x3F, rd, 0x8C, 0x00, 0x31]

/-- Decoding an encoded well-formed instruction as its row gives the instruction back, with every operand (R81, R82, R83, R84, R86, R91). -/
def Obligations.DecodeReadsBackEveryInstruction : Prop :=
  ∀ (cfg : Config) (seq : Nibble) (i : Instr) (rest : List Byte), cfg.regMap = RegMap.source → i.wf = true →
    decodeAs cfg.payloadOrder i.row (encode cfg seq i ++ rest) = .ok (i, rest)

/-- A request frame read field by field gives the encoder's operands back (R81, R82, R85, R132). -/
def Obligations.RequestOperandsAreReadBack : Prop :=
  ∀ (seq : Nibble) (r : Request) (rest : List Byte), r.wf = true → r.pay ≠ some [] →
    parseRequest (encodeRequest seq r ++ rest) = .ok ((seq, r), rest)

/-- A decoded response is well formed and encodes back to the bytes it was read from (R83, R84, R95). -/
def Obligations.ResponseBytesAreAllKept : Prop :=
  ∀ (bs : List Byte) (i : Instr) (rest : List Byte), decodeResponse bs = .ok (i, rest) →
    i.wf = true ∧ i.isCommand = false ∧ ∀ (cfg : Config) (seq : Nibble), encode cfg seq i ++ rest = bs

/-- Frames written out byte by byte from the spec decode to what they stand for; that a request is read as its typed row is log entry 8 (R91, R151). -/
def Obligations.WrittenOutFramesDecode : Prop :=
  decode .le [0xA5, 0x3F, 0x01, 0x12, 0x00, 0x02, 0xB0, 0xCB] = .ok (.getPositionTicks, []) ∧
  decode .le [0xA5, 0x3F, 0x02, 0x45, 0x00, 0x02, 0xF0, 0x49, 0x45, 0x23, 0x01, 0x00, 0x3E, 0x7E] =
    .ok (.gotoTicks 0x00012345, []) ∧
  decode .be [0xA5, 0x3F, 0x02, 0x45, 0x00, 0x02, 0xF0, 0x49, 0x00, 0x01, 0x23, 0x45, 0x7C, 0xE4] =
    .ok (.gotoTicks 0x00012345, []) ∧
  decode .le [0xA5, 0x3F, 0x09, 0x02, 0x03, 0x01, 0x13, 0x5B] = .ok (.getStatus 3, []) ∧
  decodeResponse [0xA5, 0x3F, 0x02, 0x02, 0x00, 0x00, 0x48, 0x36] =
    .ok (.rspErr ⟨0xA5, 0x3F, 0x02, 0x02, 0x00, 0x00, 0x4836⟩, []) ∧
  decodeResponse [0xA5, 0x3F, 0x01, 0x01, 0x00, 0x02, 0xAA, 0xF8, 0x45, 0x23, 0x01, 0x00, 0x3E, 0x7E] =
    .ok (.rspOk ⟨0xA5, 0x3F, 0x01, 0x01, 0x00, 0x02, 0xAAF8⟩ [0x45, 0x23, 0x01, 0x00] (some 0x3E7E), [])

/-- A step runs the command the caller hands over, or the response decoded from the bytes that arrive, or is the arrival of other bytes (log entry 5) (R27, R52, R96, R194, R216). -/
def Obligations.StepRunsTheInstructionItTakes : Prop :=
  (∀ (s : State) (i : Instr) (rest : List Input), secondHalfDue s = false → s.inbox = .command i :: rest →
    step s = exec i { s with inbox := rest }) ∧
  (∀ (s : State) (bs tail : List Byte) (i : Instr) (rest : List Input), secondHalfDue s = false → s.inbox = .frame bs :: rest →
    decodeResponse bs = .ok (i, tail) →
    step s = exec i { s with inbox := match tail with | [] => rest | b :: more => .frame (b :: more) :: rest }) ∧
  (∀ (s : State) (bs : List Byte) (e : DecodeError) (rest : List Input), secondHalfDue s = false → s.inbox = .frame bs :: rest →
    decodeResponse bs = .error e → step s = arrive bs { s with inbox := rest }) ∧
  (∀ (s : State) (nbits w : Nat) (i : Instr), decodeTableWord nbits w = some i →
    (secondHalfDue s = false → step (s.withFetchWord nbits w) = exec i s) ∧
    (secondHalfDue s = true → step (s.withFetchWord nbits w) = exec i { s with syncPending := false }))

/-- An idle block with no input does nothing (R226, R242). -/
def Obligations.IdleBlockDoesNothing : Prop :=
  ∀ s : State, s.ph = .idle → s.inbox = [] → s.syncPending = false → step s = .next s

/-- What reset leaves in every register, and the configuration State.reset has (log entries 1 to 4, 7 and 11) (R240, R34, R7). -/
def Obligations.ResetLeavesTheResetValues : Prop :=
  (∀ cfg : Config,
    let s := State.resetWith cfg
    s.ph = .idle ∧ s.seq = cfg.seqReset ∧ s.hcrcValid = false ∧ s.pcrcValid = false ∧
    s.res = none ∧ s.rval = none ∧ s.rframe = none ∧
    s.hcrcCalc = none ∧ s.hcrcRecv = none ∧ s.hcrcOk = none ∧ s.pcrcCalc = none ∧ s.pcrcRecv = none ∧ s.pcrcOk = none ∧
    s.crcAcc = none ∧ s.txBuf = [] ∧ s.rxHdr = [] ∧ s.rxPay = [] ∧ s.rxPCrc = [] ∧ s.op = none ∧
    s.txLen = 0 ∧ s.rxHCnt = 0 ∧ s.rxPLen = 0 ∧ s.rxPCnt = 0 ∧ s.rxCCnt = 0 ∧ s.cfg = cfg) ∧
  State.reset = State.resetWith Config.ofSource ∧
  Config.ofSource.verifyResponseCrc = false ∧ Config.ofSource.regMap = RegMap.source

/-- Reset in any phase puts every register of the block at its reset value and reaches neither the transport nor the record of what was sent (R241, R243). -/
def Obligations.ResetAbandonsTheCommandInFlight : Prop :=
  ∀ (s : State) (rest : List Input), secondHalfDue s = false → s.inbox = .reset :: rest →
    step s = .next { State.resetWith s.cfg with trace := s.trace, line := s.line, inbox := rest }

/-- READ_REG sends its request and returns the payload of the response, whatever its length (R173, R174, R146). -/
def Obligations.ReadRegReturnsThePayload : Prop :=
  ∀ (idx off wc : Byte) (s : State) (h : RspHeader) (payload : List Byte) (pcrc : Option Word) (rest : List ReadAnswer),
    Answered (.readReg idx off wc) s ⟨.read, idx, off, wc, none⟩ h payload pcrc rest →
    ∃ t, exec (.readReg idx off wc) s = .next t ∧
      Completed s t ⟨.read, idx, off, wc, none⟩ .payload h payload pcrc (some (.bytes payload)) rest

/-- WRITE_REG sends its words and ends with Ok and no value (R175, R193, R146). -/
def Obligations.WriteRegEndsWithoutAValue : Prop :=
  ∀ (idx off wc : Byte) (words : List Word) (s : State) (r : Request) (h : RspHeader) (payload : List Byte)
    (pcrc : Option Word) (rest : List ReadAnswer), words.length = wc.toNat →
    r = ⟨.write, idx, off, wc, if wc = 0 then none else some (wordsToBytes s.cfg.payloadOrder words)⟩ →
    Answered (.writeReg idx off wc words) s r h payload pcrc rest →
    ∃ t, exec (.writeReg idx off wc words) s = .next t ∧ Completed s t r .nothing h payload pcrc none rest

/-- The seven one-word write commands write their configured word to their mapped address (R178, R179, R180, R181, R182, R183, R184, R193). -/
def Obligations.OneWordWritesEndWithoutAValue : Prop :=
  ∀ (i : Instr) (a : Address) (v : Word) (s : State) (r : Request) (h : RspHeader) (payload : List Byte) (pcrc : Option Word)
    (rest : List ReadAnswer),
    (i, a, v) ∈ [(.gainWriteAccess, s.cfg.regMap.writeAccess, s.cfg.valWriteAccess),
      (.enableBridge, s.cfg.regMap.bridge, s.cfg.valBridgeEnable), (.disableBridge, s.cfg.regMap.bridge, s.cfg.valBridgeDisable),
      (.home, s.cfg.regMap.home, s.cfg.valHome), (.stop, s.cfg.regMap.stop, s.cfg.valStop),
      (.resetEvents, s.cfg.regMap.resetEvents, s.cfg.valResetEvents), (.sync, s.cfg.regMap.sync, s.cfg.valSync)] →
    r = ⟨.write, a.index, a.offset, 1, some (wordsToBytes s.cfg.payloadOrder [v])⟩ →
    Answered i s r h payload pcrc rest →
    ∃ t, exec i s = .next t ∧ Completed s t r .nothing h payload pcrc none rest

/-- SET_MEASURED_POSITION and GOTO_TICKS write the 32-bit pattern they are given (R185, R186, R89, R193). -/
def Obligations.TickWritesEndWithoutAValue : Prop :=
  ∀ (i : Instr) (a : Address) (ticks : Ticks) (s : State) (r : Request) (h : RspHeader) (payload : List Byte)
    (pcrc : Option Word) (rest : List ReadAnswer),
    (i, a) ∈ [(.setMeasuredPosition ticks, s.cfg.regMap.setMeasuredPosition), (.gotoTicks ticks, s.cfg.regMap.goto)] →
    r = ⟨.write, a.index, a.offset, 2, some (u32ToBytes s.cfg.payloadOrder ticks)⟩ →
    Answered i s r h payload pcrc rest →
    ∃ t, exec i s = .next t ∧ Completed s t r .nothing h payload pcrc none rest

/-- GET_POSITION_TICKS returns the 32-bit value of the first four payload bytes (R187, R90). -/
def Obligations.GetPositionTicksReturnsTheFirstTwoWords : Prop :=
  ∀ (s : State) (r : Request) (h : RspHeader) (b0 b1 b2 b3 : Byte) (more : List Byte) (pcrc : Option Word)
    (rest : List ReadAnswer),
    r = ⟨.read, s.cfg.regMap.position.index, s.cfg.regMap.position.offset, 2, none⟩ →
    Answered .getPositionTicks s r h (b0 :: b1 :: b2 :: b3 :: more) pcrc rest →
    ∃ t, exec .getPositionTicks s = .next t ∧
      Completed s t r .ticks h (b0 :: b1 :: b2 :: b3 :: more) pcrc
        (some (.u32 (match s.cfg.payloadOrder with | .le => b3 ++ b2 ++ b1 ++ b0 | .be => b0 ++ b1 ++ b2 ++ b3))) rest

/-- GET_STATUS sends its selector as the offset and returns the 16-bit value of the first two payload bytes (R189, R90). -/
def Obligations.GetStatusReturnsTheFirstWord : Prop :=
  ∀ (sel : Byte) (s : State) (r : Request) (h : RspHeader) (b0 b1 : Byte) (more : List Byte) (pcrc : Option Word)
    (rest : List ReadAnswer),
    r = ⟨.read, s.cfg.regMap.statusIndex, sel, 1, none⟩ →
    Answered (.getStatus sel) s r h (b0 :: b1 :: more) pcrc rest →
    ∃ t, exec (.getStatus sel) s = .next t ∧
      Completed s t r .word h (b0 :: b1 :: more) pcrc
        (some (.u16 (match s.cfg.payloadOrder with | .le => b1 ++ b0 | .be => b0 ++ b1))) rest

/-- GET_FIRMWARE_INFO and GET_PRODUCT_INFO return the payload bytes as received (R190, R191, R173). -/
def Obligations.InfoReadsReturnThePayload : Prop :=
  ∀ (i : Instr) (a : Address) (wc : Byte) (s : State) (r : Request) (h : RspHeader) (payload : List Byte)
    (pcrc : Option Word) (rest : List ReadAnswer),
    (i, a, wc) ∈ [(.getFirmwareInfo, s.cfg.regMap.firmware, s.cfg.regMap.firmwareWords),
      (.getProductInfo, s.cfg.regMap.productInfo, s.cfg.regMap.productInfoWords)] →
    r = ⟨.read, a.index, a.offset, wc, none⟩ →
    Answered i s r h payload pcrc rest →
    ∃ t, exec i s = .next t ∧ Completed s t r .payload h payload pcrc (some (.bytes payload)) rest

/-- A whole response with status flag 1 that reaches a waiting parser ends the command with Ok (R142, R143, R144, R146). -/
def Obligations.GoodResponseEndsTheCommand : Prop :=
  ∀ (s : State) (h : RspHeader) (payload : List Byte) (pcrc : Option Word) (v : Option Value),
    Receiving s → (Instr.rspOk h payload pcrc).wf = true → CrcsAccepted s.cfg h payload pcrc →
    resultValue s.ret s.cfg.payloadOrder payload = some v →
    ∃ t, exec (.rspOk h payload pcrc) s = .next t ∧ Received s t (responseBytes h payload pcrc) ∧ HeaderTaken s t h ∧
      PayloadRegisters s t h payload pcrc ∧ Results t .ok v (some ⟨h, payload, pcrc⟩)

/-- A response with status flag 1 that reaches a waiting parser fails on an enforced CRC, and faults (log entry 10) on a payload too short (R141, R145, R147, R188). -/
def Obligations.GoodStatusResponseMayStillFail : Prop :=
  (∀ (s : State) (h : RspHeader) (payload : List Byte) (pcrc : Option Word),
    Receiving s → (Instr.rspOk h payload pcrc).wf = true → s.cfg.verifyResponseCrc = true → crc16 (responseHeader h) ≠ h.hcrc →
    ∃ t, exec (.rspOk h payload pcrc) s = .next t ∧
      Received { s with line := { s.line with rx := delivers (payload ++ pcrcBytes pcrc) } } t (responseBlock h) ∧ HeaderTaken s t h ∧
      NoPayload s t ∧ t.crcAcc = some (crc16 (responseHeader h)) ∧ Results t .crcMismatch none none) ∧
  (∀ (s : State) (h : RspHeader) (payload : List Byte) (c : Word),
    Receiving s → (Instr.rspOk h payload (some c)).wf = true → s.cfg.verifyResponseCrc = true →
    crc16 (responseHeader h) = h.hcrc → crc16 payload ≠ c →
    ∃ t, exec (.rspOk h payload (some c)) s = .next t ∧ Received s t (responseBytes h payload (some c)) ∧ HeaderTaken s t h ∧
      PayloadTaken s t payload c ∧ Results t .crcMismatch none none) ∧
  (∀ (s : State) (h : RspHeader) (payload : List Byte) (pcrc : Option Word),
    Receiving s → (Instr.rspOk h payload pcrc).wf = true → CrcsAccepted s.cfg h payload pcrc →
    resultValue s.ret s.cfg.payloadOrder payload = none →
    ∃ t, exec (.rspOk h payload pcrc) s = .fault (.shortPayload t) ∧ Received s t (responseBytes h payload pcrc) ∧
      HeaderTaken s t h ∧ PayloadRegisters s t h payload pcrc ∧ Results t .ok none (some ⟨h, payload, pcrc⟩))

/-- A response header with another status flag that reaches a waiting parser ends the command with an error (R141, R142, R215). -/
def Obligations.ErrorResponseEndsTheCommand : Prop :=
  ∀ (s : State) (h : RspHeader), Receiving s → (Instr.rspErr h).wf = true →
    ∃ t, exec (.rspErr h) s = .next t ∧ Received s t (responseBlock h) ∧ HeaderTaken s t h ∧ NoPayload s t ∧
      t.crcAcc = some (crc16 (responseHeader h)) ∧
      Results t (if s.cfg.verifyResponseCrc = true ∧ crc16 (responseHeader h) ≠ h.hcrc then .crcMismatch else .badResponse)
        none none

/-- Bytes that arrive while the block asks for no byte wait in the transport, a whole response or not (R52, R216, R147). -/
def Obligations.BytesWaitWhenNoReadIsOutstanding : Prop :=
  (∀ (i : Instr) (s : State), i.isCommand = false → i.wf = true → s.ph ≠ .rxHeader → s.ph ≠ .rxPayload →
    exec i s = .next { s with line := { s.line with rx := s.line.rx ++ delivers (encode s.cfg s.seq i) } }) ∧
  (∀ (bs : List Byte) (s : State), s.ph ≠ .rxHeader → s.ph ≠ .rxPayload →
    arrive bs s = .next { s with line := { s.line with rx := s.line.rx ++ delivers bs } })

/-- A purge that fails ends any command with TransportError before anything is sent, with the sequence counter advanced (R170, R171, R212, R218). -/
def Obligations.FailedPurgeEndsTheCommand : Prop :=
  ∀ (i : Instr) (s : State) (r : Request), Accepted i s r → s.line.purges.head? = some .ioError →
    exec i s = .next { s with
      seq := s.seq + 1
      op := some ⟨r.dir, s.seq, r.idx, r.off, r.wc, r.pay.getD [], r.pay.isSome⟩
      ret := returnOf i
      hcrcValid := false
      pcrcValid := false
      res := some .transportError
      rval := none
      rframe := none
      trace := s.trace ++ [.purge .ioError]
      line := { s.line with purges := s.line.purges.tail } }

/-- A write that fails or takes fewer bytes than given ends any command with TransportError; no flush and no read follow (R170, R171, R212, R218). -/
def Obligations.FailedWriteEndsTheCommand : Prop :=
  ∀ (i : Instr) (s : State) (r : Request) (a : WriteAnswer), Accepted i s r → s.line.purges.head? = some .ok →
    s.line.writes.head? = some a → a ≠ .written (encodeRequest s.seq r).length →
    exec i s = .next { s with
      seq := s.seq + 1
      op := some ⟨r.dir, s.seq, r.idx, r.off, r.wc, r.pay.getD [], r.pay.isSome⟩
      ret := returnOf i
      hcrcValid := false
      pcrcValid := false
      res := some .transportError
      rval := none
      rframe := none
      txBuf := encodeRequest s.seq r ++ s.txBuf.drop (encodeRequest s.seq r).length
      txLen := (encodeRequest s.seq r).length
      crcAcc := some (requestCrcAcc s.seq r)
      trace := s.trace ++ [.purge .ok, .tx (encodeRequest s.seq r) a]
      line := ⟨s.line.purges.tail, s.line.writes.tail, s.line.later.headD [], s.line.later.tail⟩ }

/-- A read that fails before the eighth header byte ends the command with Timeout or TransportError (R139). -/
def Obligations.HeaderCutShortEndsTheCommand : Prop :=
  ∀ (i : Instr) (s : State) (r : Request) (bs : List Byte) (a : ReadAnswer) (e : ResultCode) (rest : List ReadAnswer),
    Accepted i s r → bs.length < 8 → readError a = some e →
    Ready s (encodeRequest s.seq r).length (delivers bs ++ a :: rest) →
    ∃ t, exec i s = .next t ∧ Exchanged s t r (returnOf i) (delivers bs ++ [a]) rest ∧
      t.rxHdr = bs ++ s.rxHdr.drop bs.length ∧ t.rxHCnt = bs.length ∧ NoHeader s t ∧ NoPayload s t ∧
      t.crcAcc = some (requestCrcAcc s.seq r) ∧ Results t e none none

/-- A read that fails inside the payload or its CRC ends the command with Timeout or TransportError (R143, R144, R213, R212). -/
def Obligations.PayloadCutShortEndsTheCommand : Prop :=
  ∀ (i : Instr) (s : State) (r : Request) (h : RspHeader) (bs : List Byte) (a : ReadAnswer) (e : ResultCode)
    (rest : List ReadAnswer),
    Accepted i s r → h.status = 1 → h.wc ≠ 0 → CrcsAccepted s.cfg h [] none → bs.length < 2 * h.wc.toNat + 2 →
    readError a = some e → Ready s (encodeRequest s.seq r).length (delivers (responseBlock h ++ bs) ++ a :: rest) →
    ∃ t, exec i s = .next t ∧ Exchanged s t r (returnOf i) (delivers (responseBlock h ++ bs) ++ [a]) rest ∧ HeaderTaken s t h ∧
      t.rxPLen = 2 * h.wc.toNat ∧ t.rxPCnt = min bs.length (2 * h.wc.toNat) ∧ t.rxCCnt = bs.length - 2 * h.wc.toNat ∧
      t.rxPay = bs.take (2 * h.wc.toNat) ++ s.rxPay.drop (min bs.length (2 * h.wc.toNat)) ∧
      t.rxPCrc = bs.drop (2 * h.wc.toNat) ++ s.rxPCrc.drop (bs.length - 2 * h.wc.toNat) ∧
      t.pcrcCalc = s.pcrcCalc ∧ t.pcrcRecv = s.pcrcRecv ∧ t.pcrcOk = s.pcrcOk ∧ t.pcrcValid = false ∧
      t.crcAcc = some (crc16 (responseHeader h)) ∧ Results t e none none

/-- A status flag other than 1 ends the command with BadResponse and leaves the rest of the response in the transport (R142, R147, R215). -/
def Obligations.BadStatusEndsTheCommandAtOnce : Prop :=
  ∀ (i : Instr) (s : State) (r : Request) (h : RspHeader) (rest : List ReadAnswer),
    Accepted i s r → h.status ≠ 1 → CrcsAccepted s.cfg h [] none →
    Ready s (encodeRequest s.seq r).length (delivers (responseBlock h) ++ rest) →
    ∃ t, exec i s = .next t ∧ Exchanged s t r (returnOf i) (delivers (responseBlock h)) rest ∧ HeaderTaken s t h ∧
      NoPayload s t ∧ t.crcAcc = some (crc16 (responseHeader h)) ∧ Results t .badResponse none none

/-- With CRCs enforced a wrong header CRC ends the command with CrcMismatch, whatever the status flag (R141, R214, R217). -/
def Obligations.HeaderCrcMismatchComesBeforeTheStatus : Prop :=
  ∀ (i : Instr) (s : State) (r : Request) (h : RspHeader) (rest : List ReadAnswer),
    Accepted i s r → s.cfg.verifyResponseCrc = true → crc16 (responseHeader h) ≠ h.hcrc →
    Ready s (encodeRequest s.seq r).length (delivers (responseBlock h) ++ rest) →
    ∃ t, exec i s = .next t ∧ Exchanged s t r (returnOf i) (delivers (responseBlock h)) rest ∧ HeaderTaken s t h ∧
      NoPayload s t ∧ t.crcAcc = some (crc16 (responseHeader h)) ∧ Results t .crcMismatch none none

/-- With CRCs enforced a wrong payload CRC ends the command with CrcMismatch (R145, R214). -/
def Obligations.PayloadCrcMismatchEndsTheCommand : Prop :=
  ∀ (i : Instr) (s : State) (r : Request) (h : RspHeader) (payload : List Byte) (c : Word) (rest : List ReadAnswer),
    Accepted i s r → (Instr.rspOk h payload (some c)).wf = true → s.cfg.verifyResponseCrc = true →
    crc16 (responseHeader h) = h.hcrc → crc16 payload ≠ c →
    Ready s (encodeRequest s.seq r).length (delivers (responseBytes h payload (some c)) ++ rest) →
    ∃ t, exec i s = .next t ∧ Exchanged s t r (returnOf i) (delivers (responseBytes h payload (some c))) rest ∧
      HeaderTaken s t h ∧ PayloadTaken s t payload c ∧ Results t .crcMismatch none none

/-- An accepted response too short for a typed read is the fault ShortPayload (R188). -/
def Obligations.ShortPayloadFaultsTheTypedReads : Prop :=
  ∀ (i : Instr) (s : State) (r : Request) (h : RspHeader) (payload : List Byte) (pcrc : Option Word) (rest : List ReadAnswer),
    (i = .getPositionTicks ∧ payload.length < 4) ∨ ((∃ sel, i = .getStatus sel) ∧ payload.length < 2) →
    Answered i s r h payload pcrc rest →
    ∃ t, exec i s = .fault (.shortPayload t) ∧ Completed s t r (returnOf i) h payload pcrc none rest

/-- A word list of the wrong length and a command issued while another is in flight are refused; which name where both hold is log entry 21 (R176, R62, R132). -/
def Obligations.IllFormedAndOverlappingCommandsAreRefused : Prop :=
  (∀ (idx off wc : Byte) (words : List Word) (s : State), words.length ≠ wc.toNat →
    exec (.writeReg idx off wc words) s = .refused .illFormed) ∧
  (∀ (i : Instr) (s : State), i.isCommand = true → i.wf = true → s.ph ≠ .idle → exec i s = .refused .overlap)

/-- Every accepted command uses the sequence number and advances the counter by one modulo 16, whatever its outcome (R171, R192, R253). -/
def Obligations.EveryCommandAdvancesSeqOnce : Prop :=
  ∀ (i : Instr) (s : State) (r : Request), Accepted i s r →
    ∃ t, (exec i s = .next t ∨ exec i s = .fault (.shortPayload t)) ∧ t.seq.toNat = (s.seq.toNat + 1) % 16 ∧
      t.op = some ⟨r.dir, s.seq, r.idx, r.off, r.wc, r.pay.getD [], r.pay.isSome⟩

/-- Every command ends, provided the transport answers, within one purge, one write, one flush and 520 reads (R195). -/
def Obligations.EveryCommandEndsWhenTheTransportAnswers : Prop :=
  ∀ (i : Instr) (s : State) (r : Request), Accepted i s r → Answers s →
    ∃ t, (exec i s = .next t ∨ exec i s = .fault (.shortPayload t)) ∧ t.ph = .idle ∧ t.res ≠ none ∧
      t.trace = s.trace ++ newEvents s t ∧ WithinOneTransaction (newEvents s t)

/-- The events of one command are a purge, then the whole request, then the flush, then reads, and no other (R63, R16). -/
def Obligations.EventsOfACommandComeInOrder : Prop :=
  ∀ (i : Instr) (s t : State) (r : Request), Accepted i s r → stateOf (exec i s) = some t →
    t.trace = s.trace ++ newEvents s t ∧ CommandEvents (encodeRequest s.seq r) (newEvents s t) ∧
      (newEvents s t).countP Event.isRx ≤ 520

/-- No command but the two typed reads can end in a fault, and the only fault of an instruction is ShortPayload (R188, R212, R213, R214, R215). -/
def Obligations.OnlyTypedReadsFault : Prop :=
  ∀ (i : Instr) (s : State) (f : Fault), exec i s = .fault f →
    (∃ t, f = .shortPayload t) ∧ (i.isCommand = true → i = .getPositionTicks ∨ ∃ sel, i = .getStatus sel)

/-- No step writes a configuration register (R30). -/
def Obligations.ConfigurationIsNeverWritten : Prop :=
  ∀ s t : State, stateOf (step s) = some t → t.cfg = s.cfg

/-- The sequence counter changes only by one when a command is accepted, and to SEQ_RESET at reset (R29, R171, R240). -/
def Obligations.SeqMovesOnlyByCommandsAndReset : Prop :=
  ∀ s t : State, stateOf (step s) = some t →
    (AcceptsCommand s → t.seq = s.seq + 1) ∧ (TakesReset s → t.seq = s.cfg.seqReset) ∧
      (¬ AcceptsCommand s → ¬ TakesReset s → t.seq = s.seq)

/-- The block never raises NotConnected or CommandFailed, and CrcMismatch only where CRCs are enforced (R210, R211, R214, R31). -/
def Obligations.BlockRaisesOnlyItsOwnCodes : Prop :=
  ∀ s t : State, stateOf (step s) = some t →
    t.res = s.res ∨ t.res ∈ [none, some .ok, some .transportError, some .timeout, some .badResponse] ∨
      (t.res = some .crcMismatch ∧ s.cfg.verifyResponseCrc = true)

/-- No step takes back an event (R16, R218). -/
def Obligations.TraceOnlyGrows : Prop :=
  ∀ s t : State, stateOf (step s) = some t → s.trace <+: t.trace

/-- The phase register moves only as the transaction allows (R27, R170). -/
def Obligations.PhasesMoveInOrder : Prop :=
  ∀ s t : State, tick s = .next t →
    (s.ph, t.ph) ∈ phaseMoves ∧ (s.ph = .rxHeader → t.ph = .rxPayload → t.rxPLen ≠ 0)

/-- The block has no step only where the transport has not answered the primitive it waits in (R195, R258). -/
def Obligations.BlockIsStuckOnlyUnanswered : Prop :=
  ∀ s : State, step s = .fault .transportStuck →
    s.inbox = [] ∧
    ((s.ph = .purging ∧ s.line.purges = []) ∨ (s.ph = .sending ∧ s.line.writes = []) ∨
      ((s.ph = .rxHeader ∨ s.ph = .rxPayload) ∧ s.line.rx = []))

/-- SYNC_POSITION is SET_MEASURED_POSITION, then SYNC if its result was Ok; that steps of the machine run the two is the model's choice (log entries 5, 25) (R97, R60). -/
def Obligations.SyncPositionIsTwoCommands : Prop :=
  (∀ (s : State) (ticks : Ticks) (rest : List Input), secondHalfDue s = false → s.inbox = .syncPosition ticks :: rest →
    step s = exec (.setMeasuredPosition ticks) { s with inbox := rest, syncPending := true }) ∧
  (∀ s : State, s.syncPending = true → s.ph = .idle → s.res = some .ok → step s = exec .sync { s with syncPending := false }) ∧
  (∀ s : State, s.syncPending = true → s.ph = .idle → s.res ≠ some .ok → step s = .next { s with syncPending := false })

/-- A result or diagnostic register that holds no value is not read as zero, one that holds a value is read as it is, and in flight only BUSY is read (R27, R28, R31, R34, R35, R193, R251, R254). -/
def Obligations.AbsentResultsCannotBeRead : Prop :=
  (∀ s : State, busy s = true ↔ s.ph ≠ .idle) ∧
  (∀ s : State, s.Inv →
    (s.ph ≠ .idle →
      callerRes s = .refused .readInFlight ∧ callerRval s = .refused .readInFlight ∧ callerRframe s = .refused .readInFlight ∧
      callerHcrcValid s = .refused .readInFlight ∧ callerHcrcCalc s = .refused .readInFlight ∧
      callerHcrcRecv s = .refused .readInFlight ∧ callerHcrcOk s = .refused .readInFlight ∧
      callerPcrcValid s = .refused .readInFlight ∧ callerPcrcCalc s = .refused .readInFlight ∧
      callerPcrcRecv s = .refused .readInFlight ∧ callerPcrcOk s = .refused .readInFlight) ∧
    (s.ph = .idle →
      (s.res ≠ some .ok → callerRval s = .fault .rval ∧ callerRframe s = .fault .rframe) ∧
      (s.res = none → callerRes s = .fault .res) ∧
      (s.rval = none → callerRval s = .fault .rval) ∧
      (s.rframe = none → callerRframe s = .fault .rframe) ∧
      (∀ c, s.res = some c → callerRes s = .value c) ∧
      (∀ v, s.rval = some v → callerRval s = .value v) ∧
      (∀ f, s.rframe = some f → callerRframe s = .value f) ∧
      callerHcrcValid s = .value s.hcrcValid ∧ callerPcrcValid s = .value s.pcrcValid ∧
      (s.hcrcValid = false →
        callerHcrcCalc s = .fault .headerCrc ∧ callerHcrcRecv s = .fault .headerCrc ∧
        callerHcrcOk s = .fault .headerCrc) ∧
      (s.pcrcValid = false →
        callerPcrcCalc s = .fault .payloadCrc ∧ callerPcrcRecv s = .fault .payloadCrc ∧
        callerPcrcOk s = .fault .payloadCrc) ∧
      (s.hcrcValid = true →
        callerHcrcCalc s = .value (crc16 (rxHeaderBytes s)) ∧ callerHcrcRecv s = .value (rxHeaderCrc s) ∧
        callerHcrcOk s = .value (crc16 (rxHeaderBytes s) == rxHeaderCrc s)) ∧
      (s.pcrcValid = true →
        callerPcrcCalc s = .value (crc16 (rxPayloadBytes s)) ∧ callerPcrcRecv s = .value (rxPayloadCrc s) ∧
        callerPcrcOk s = .value (crc16 (rxPayloadBytes s) == rxPayloadCrc s))))

/-- A command run one primitive at a time ends exactly as the command run in one step (R16, R170). -/
def Obligations.SmallStepsGiveTheBigStep : Prop :=
  ∀ (i : Instr) (s : State) (r : Request), Accepted i s r → s.inbox = [] →
    ∃ k, k ≤ 523 ∧ Host.Core.run Sys2Proof.core k (accept r (returnOf i) s) = exec i s

/-- Bytes that reach a parser asking for bytes are read one at a time, in order, a whole response or not (R52, R136, R216). -/
def Obligations.ArrivedBytesAreReadOneAtATime : Prop :=
  (∀ (i : Instr) (s : State), i.isCommand = false → i.wf = true → s.ph = .rxHeader ∨ s.ph = .rxPayload → s.inbox = [] →
    ∃ k, k ≤ s.line.rx.length + (encode s.cfg s.seq i).length ∧
      Host.Core.run Sys2Proof.core k { s with line := { s.line with rx := s.line.rx ++ delivers (encode s.cfg s.seq i) } } =
        exec i s) ∧
  (∀ (bs : List Byte) (s : State), s.ph = .rxHeader ∨ s.ph = .rxPayload → s.inbox = [] →
    ∃ k, k ≤ s.line.rx.length + bs.length ∧
      Host.Core.run Sys2Proof.core k { s with line := { s.line with rx := s.line.rx ++ delivers bs } } = arrive bs s)

/-- Every step keeps the invariant of the block (R22, R23, R24, R25, R26, R27, R28, R31, R210). -/
def Obligations.EveryStepKeepsTheInvariant : Prop :=
  ∀ s t : State, s.Inv → step s = .next t → t.Inv

/-- The state after reset meets the invariant, for every configuration (R34, R240). -/
def Obligations.ResetMeetsTheInvariant : Prop :=
  (∀ cfg : Config, (State.resetWith cfg).Inv) ∧ State.reset.Inv

/-- A later command cannot tell what earlier commands left, but through the sequence counter (R29, R66, R21, R147). -/
def Obligations.EarlierCommandsActOnlyThroughSeq : Prop :=
  ∀ (i : Instr) (a b a' : State), SameForCommands a b → a.ph = .idle → i.isCommand = true → i.wf = true →
    stateOf (exec i a) = some a' →
    ∃ b', ((exec i a = .next a' ∧ exec i b = .next b') ∨
        (exec i a = .fault (.shortPayload a') ∧ exec i b = .fault (.shortPayload b'))) ∧ SameOutcome a a' b b'

/-- By default a response is accepted exactly when 8 bytes arrive, the fourth is 1, and the announced payload arrives (R148). -/
def Obligations.AcceptedExactlyWhenEnoughBytesArrive : Prop :=
  ∀ (i : Instr) (s t : State) (r : Request) (reads : List ReadAnswer),
    Accepted i s r → s.cfg.verifyResponseCrc = false → Ready s (encodeRequest s.seq r).length reads →
    stateOf (exec i s) = some t →
    (t.res = some .ok ↔ ∃ (h : RspHeader) (tail : List Byte) (rest : List ReadAnswer),
      reads = delivers (responseBlock h ++ tail) ++ rest ∧ h.status = 1 ∧
        tail.length = if h.wc = 0 then 0 else 2 * h.wc.toNat + 2)

/-- A response with status 1 and n words delivers exactly its payload (R152, R188). -/
def Obligations.DeliveredPayloadIsRecovered : Prop :=
  ∀ (i : Instr) (s : State) (r : Request) (h : RspHeader) (payload : List Byte) (c : Word) (rest : List ReadAnswer),
    Accepted i s r → h.status = 1 → h.wc ≠ 0 → payload.length = 2 * h.wc.toNat → CrcsAccepted s.cfg h payload (some c) →
    Ready s (encodeRequest s.seq r).length (delivers (responseBlock h ++ payload ++ be16 c) ++ rest) →
    ∃ t f, t.res = some .ok ∧ t.rframe = some f ∧ f.payload = payload ∧
      (resultValue (returnOf i) s.cfg.payloadOrder payload ≠ none → exec i s = .next t) ∧
      (resultValue (returnOf i) s.cfg.payloadOrder payload = none → exec i s = .fault (.shortPayload t))

/-- An echo of a write request to register index 1 is accepted as its own response, even with CRCs enforced (R250). -/
def Obligations.EchoedWriteIsAccepted : Prop :=
  ∀ (i : Instr) (s : State) (r : Request) (rest : List ReadAnswer),
    Accepted i s r → r.dir = .write → r.idx = 1 →
    Ready s (encodeRequest s.seq r).length (delivers (encodeRequest s.seq r) ++ rest) →
    ∃ t f, exec i s = .next t ∧ t.res = some .ok ∧ t.rframe = some f ∧ f.payload = r.pay.getD [] ∧ f.hdr.ctrl = ctrlByte .write s.seq

/-- With CRCs enforced, a command that ends with Ok had right CRCs (R141, R145, R251). -/
def Obligations.EnforcedCrcsAgreeOnSuccess : Prop :=
  ∀ (i : Instr) (s t : State) (r : Request), Accepted i s r → s.cfg.verifyResponseCrc = true → stateOf (exec i s) = some t →
    t.res = some .ok →
    ∃ f, t.rframe = some f ∧ t.hcrcValid = true ∧ t.hcrcOk = some true ∧ f.hdr.hcrc = crc16 (responseHeader f.hdr) ∧
      (f.payload ≠ [] → t.pcrcValid = true ∧ t.pcrcOk = some true ∧ f.pcrc = some (crc16 f.payload))

/-- What the receive side holds before a successful purge has no influence on the command (R64, R147). -/
def Obligations.PurgeDiscardsWhatWasReceivedBefore : Prop :=
  ∀ (i : Instr) (s : State) (r : Request) (stale : List ReadAnswer), Accepted i s r → s.line.purges.head? = some .ok →
    exec i { s with line := { s.line with rx := stale } } = exec i s
end

