-- ==== Sys2Proof/Laws/Config.lean ====
section
/-! SUPPORT. The values of the constants of spec/00_scope.md R6, one lemma each. -/

namespace Sys2Proof

@[simp] theorem constants_sof : constants.sof = 0xA5 := rfl
@[simp] theorem constants_devAddr : constants.devAddr = 0x3F := rfl
@[simp] theorem constants_dirRead : constants.dirRead = 0x01 := rfl
@[simp] theorem constants_dirWrite : constants.dirWrite = 0x02 := rfl
@[simp] theorem constants_seqShift : constants.seqShift = 2 := rfl
@[simp] theorem constants_seqMod : constants.seqMod = 16 := rfl
@[simp] theorem constants_statusOk : constants.statusOk = 0x01 := rfl
@[simp] theorem constants_crcPoly : constants.crcPoly = 0x1021 := rfl
@[simp] theorem constants_crcInit : constants.crcInit = 0x0000 := rfl
@[simp] theorem constants_hdrLen : constants.hdrLen = 6 := rfl
@[simp] theorem constants_hdrBlkLen : constants.hdrBlkLen = 8 := rfl
@[simp] theorem constants_wcMax : constants.wcMax = 255 := rfl
@[simp] theorem constants_payMax : constants.payMax = 510 := rfl
@[simp] theorem constants_frameMax : constants.frameMax = 520 := rfl
@[simp] theorem constants_regWords : constants.regWords = 1 := rfl
@[simp] theorem constants_tickWords : constants.tickWords = 2 := rfl

end Sys2Proof
end

