-- ==== Sys2Proof/Laws/State.lean ====
section
/-! SUPPORT. One lemma per field per update of the state, each true by definition. -/

namespace Sys2Proof.Machine

/-- Modulo `SEQ_MOD` is what 4 bits do by themselves (R29). -/
@[simp] theorem nextSeq_eq (q : Nibble) : nextSeq q = q + 1 := by
  revert q
  decide

/-! Appending an event (R16). -/

@[simp] theorem record_cfg (e : Event) (s : State) : (record e s).cfg = s.cfg := rfl
@[simp] theorem record_seq (e : Event) (s : State) : (record e s).seq = s.seq := rfl
@[simp] theorem record_ph (e : Event) (s : State) : (record e s).ph = s.ph := rfl
@[simp] theorem record_crcAcc (e : Event) (s : State) : (record e s).crcAcc = s.crcAcc := rfl
@[simp] theorem record_txBuf (e : Event) (s : State) : (record e s).txBuf = s.txBuf := rfl
@[simp] theorem record_txLen (e : Event) (s : State) : (record e s).txLen = s.txLen := rfl
@[simp] theorem record_rxHdr (e : Event) (s : State) : (record e s).rxHdr = s.rxHdr := rfl
@[simp] theorem record_rxHCnt (e : Event) (s : State) : (record e s).rxHCnt = s.rxHCnt := rfl
@[simp] theorem record_rxPay (e : Event) (s : State) : (record e s).rxPay = s.rxPay := rfl
@[simp] theorem record_rxPLen (e : Event) (s : State) : (record e s).rxPLen = s.rxPLen := rfl
@[simp] theorem record_rxPCnt (e : Event) (s : State) : (record e s).rxPCnt = s.rxPCnt := rfl
@[simp] theorem record_rxPCrc (e : Event) (s : State) : (record e s).rxPCrc = s.rxPCrc := rfl
@[simp] theorem record_rxCCnt (e : Event) (s : State) : (record e s).rxCCnt = s.rxCCnt := rfl
@[simp] theorem record_op (e : Event) (s : State) : (record e s).op = s.op := rfl
@[simp] theorem record_ret (e : Event) (s : State) : (record e s).ret = s.ret := rfl
@[simp] theorem record_hcrcCalc (e : Event) (s : State) : (record e s).hcrcCalc = s.hcrcCalc := rfl
@[simp] theorem record_hcrcRecv (e : Event) (s : State) : (record e s).hcrcRecv = s.hcrcRecv := rfl
@[simp] theorem record_hcrcOk (e : Event) (s : State) : (record e s).hcrcOk = s.hcrcOk := rfl
@[simp] theorem record_hcrcValid (e : Event) (s : State) : (record e s).hcrcValid = s.hcrcValid := rfl
@[simp] theorem record_pcrcCalc (e : Event) (s : State) : (record e s).pcrcCalc = s.pcrcCalc := rfl
@[simp] theorem record_pcrcRecv (e : Event) (s : State) : (record e s).pcrcRecv = s.pcrcRecv := rfl
@[simp] theorem record_pcrcOk (e : Event) (s : State) : (record e s).pcrcOk = s.pcrcOk := rfl
@[simp] theorem record_pcrcValid (e : Event) (s : State) : (record e s).pcrcValid = s.pcrcValid := rfl
@[simp] theorem record_res (e : Event) (s : State) : (record e s).res = s.res := rfl
@[simp] theorem record_rval (e : Event) (s : State) : (record e s).rval = s.rval := rfl
@[simp] theorem record_rframe (e : Event) (s : State) : (record e s).rframe = s.rframe := rfl
@[simp] theorem record_trace (e : Event) (s : State) : (record e s).trace = s.trace ++ [e] := rfl
@[simp] theorem record_line (e : Event) (s : State) : (record e s).line = s.line := rfl
@[simp] theorem record_inbox (e : Event) (s : State) : (record e s).inbox = s.inbox := rfl
@[simp] theorem record_syncPending (e : Event) (s : State) : (record e s).syncPending = s.syncPending := rfl

/-! Clearing the `_VALID` bits (R170). -/

@[simp] theorem clearCrcFlags_cfg (s : State) : (clearCrcFlags s).cfg = s.cfg := rfl
@[simp] theorem clearCrcFlags_seq (s : State) : (clearCrcFlags s).seq = s.seq := rfl
@[simp] theorem clearCrcFlags_ph (s : State) : (clearCrcFlags s).ph = s.ph := rfl
@[simp] theorem clearCrcFlags_crcAcc (s : State) : (clearCrcFlags s).crcAcc = s.crcAcc := rfl
@[simp] theorem clearCrcFlags_txBuf (s : State) : (clearCrcFlags s).txBuf = s.txBuf := rfl
@[simp] theorem clearCrcFlags_txLen (s : State) : (clearCrcFlags s).txLen = s.txLen := rfl
@[simp] theorem clearCrcFlags_rxHdr (s : State) : (clearCrcFlags s).rxHdr = s.rxHdr := rfl
@[simp] theorem clearCrcFlags_rxHCnt (s : State) : (clearCrcFlags s).rxHCnt = s.rxHCnt := rfl
@[simp] theorem clearCrcFlags_rxPay (s : State) : (clearCrcFlags s).rxPay = s.rxPay := rfl
@[simp] theorem clearCrcFlags_rxPLen (s : State) : (clearCrcFlags s).rxPLen = s.rxPLen := rfl
@[simp] theorem clearCrcFlags_rxPCnt (s : State) : (clearCrcFlags s).rxPCnt = s.rxPCnt := rfl
@[simp] theorem clearCrcFlags_rxPCrc (s : State) : (clearCrcFlags s).rxPCrc = s.rxPCrc := rfl
@[simp] theorem clearCrcFlags_rxCCnt (s : State) : (clearCrcFlags s).rxCCnt = s.rxCCnt := rfl
@[simp] theorem clearCrcFlags_op (s : State) : (clearCrcFlags s).op = s.op := rfl
@[simp] theorem clearCrcFlags_ret (s : State) : (clearCrcFlags s).ret = s.ret := rfl
@[simp] theorem clearCrcFlags_hcrcCalc (s : State) : (clearCrcFlags s).hcrcCalc = s.hcrcCalc := rfl
@[simp] theorem clearCrcFlags_hcrcRecv (s : State) : (clearCrcFlags s).hcrcRecv = s.hcrcRecv := rfl
@[simp] theorem clearCrcFlags_hcrcOk (s : State) : (clearCrcFlags s).hcrcOk = s.hcrcOk := rfl
@[simp] theorem clearCrcFlags_hcrcValid (s : State) : (clearCrcFlags s).hcrcValid = false := rfl
@[simp] theorem clearCrcFlags_pcrcCalc (s : State) : (clearCrcFlags s).pcrcCalc = s.pcrcCalc := rfl
@[simp] theorem clearCrcFlags_pcrcRecv (s : State) : (clearCrcFlags s).pcrcRecv = s.pcrcRecv := rfl
@[simp] theorem clearCrcFlags_pcrcOk (s : State) : (clearCrcFlags s).pcrcOk = s.pcrcOk := rfl
@[simp] theorem clearCrcFlags_pcrcValid (s : State) : (clearCrcFlags s).pcrcValid = false := rfl
@[simp] theorem clearCrcFlags_res (s : State) : (clearCrcFlags s).res = s.res := rfl
@[simp] theorem clearCrcFlags_rval (s : State) : (clearCrcFlags s).rval = s.rval := rfl
@[simp] theorem clearCrcFlags_rframe (s : State) : (clearCrcFlags s).rframe = s.rframe := rfl
@[simp] theorem clearCrcFlags_trace (s : State) : (clearCrcFlags s).trace = s.trace := rfl
@[simp] theorem clearCrcFlags_line (s : State) : (clearCrcFlags s).line = s.line := rfl
@[simp] theorem clearCrcFlags_inbox (s : State) : (clearCrcFlags s).inbox = s.inbox := rfl
@[simp] theorem clearCrcFlags_syncPending (s : State) : (clearCrcFlags s).syncPending = s.syncPending := rfl

/-! Ending a command with an error (R218). -/

@[simp] theorem raise_cfg (e : ResultCode) (s : State) : (raise e s).cfg = s.cfg := rfl
@[simp] theorem raise_seq (e : ResultCode) (s : State) : (raise e s).seq = s.seq := rfl
@[simp] theorem raise_ph (e : ResultCode) (s : State) : (raise e s).ph = .idle := rfl
@[simp] theorem raise_crcAcc (e : ResultCode) (s : State) : (raise e s).crcAcc = s.crcAcc := rfl
@[simp] theorem raise_txBuf (e : ResultCode) (s : State) : (raise e s).txBuf = s.txBuf := rfl
@[simp] theorem raise_txLen (e : ResultCode) (s : State) : (raise e s).txLen = s.txLen := rfl
@[simp] theorem raise_rxHdr (e : ResultCode) (s : State) : (raise e s).rxHdr = s.rxHdr := rfl
@[simp] theorem raise_rxHCnt (e : ResultCode) (s : State) : (raise e s).rxHCnt = s.rxHCnt := rfl
@[simp] theorem raise_rxPay (e : ResultCode) (s : State) : (raise e s).rxPay = s.rxPay := rfl
@[simp] theorem raise_rxPLen (e : ResultCode) (s : State) : (raise e s).rxPLen = s.rxPLen := rfl
@[simp] theorem raise_rxPCnt (e : ResultCode) (s : State) : (raise e s).rxPCnt = s.rxPCnt := rfl
@[simp] theorem raise_rxPCrc (e : ResultCode) (s : State) : (raise e s).rxPCrc = s.rxPCrc := rfl
@[simp] theorem raise_rxCCnt (e : ResultCode) (s : State) : (raise e s).rxCCnt = s.rxCCnt := rfl
@[simp] theorem raise_op (e : ResultCode) (s : State) : (raise e s).op = s.op := rfl
@[simp] theorem raise_ret (e : ResultCode) (s : State) : (raise e s).ret = s.ret := rfl
@[simp] theorem raise_hcrcCalc (e : ResultCode) (s : State) : (raise e s).hcrcCalc = s.hcrcCalc := rfl
@[simp] theorem raise_hcrcRecv (e : ResultCode) (s : State) : (raise e s).hcrcRecv = s.hcrcRecv := rfl
@[simp] theorem raise_hcrcOk (e : ResultCode) (s : State) : (raise e s).hcrcOk = s.hcrcOk := rfl
@[simp] theorem raise_hcrcValid (e : ResultCode) (s : State) : (raise e s).hcrcValid = s.hcrcValid := rfl
@[simp] theorem raise_pcrcCalc (e : ResultCode) (s : State) : (raise e s).pcrcCalc = s.pcrcCalc := rfl
@[simp] theorem raise_pcrcRecv (e : ResultCode) (s : State) : (raise e s).pcrcRecv = s.pcrcRecv := rfl
@[simp] theorem raise_pcrcOk (e : ResultCode) (s : State) : (raise e s).pcrcOk = s.pcrcOk := rfl
@[simp] theorem raise_pcrcValid (e : ResultCode) (s : State) : (raise e s).pcrcValid = s.pcrcValid := rfl
@[simp] theorem raise_res (e : ResultCode) (s : State) : (raise e s).res = some e := rfl
@[simp] theorem raise_rval (e : ResultCode) (s : State) : (raise e s).rval = none := rfl
@[simp] theorem raise_rframe (e : ResultCode) (s : State) : (raise e s).rframe = none := rfl
@[simp] theorem raise_trace (e : ResultCode) (s : State) : (raise e s).trace = s.trace := rfl
@[simp] theorem raise_line (e : ResultCode) (s : State) : (raise e s).line = s.line := rfl
@[simp] theorem raise_inbox (e : ResultCode) (s : State) : (raise e s).inbox = s.inbox := rfl
@[simp] theorem raise_syncPending (e : ResultCode) (s : State) : (raise e s).syncPending = s.syncPending := rfl

/-! The entry of `XACT` (R170). -/

@[simp] theorem accept_cfg (r : Request) (ret : Return) (s : State) : (accept r ret s).cfg = s.cfg := rfl
@[simp] theorem accept_seq (r : Request) (ret : Return) (s : State) : (accept r ret s).seq = s.seq + 1 := nextSeq_eq s.seq
@[simp] theorem accept_ph (r : Request) (ret : Return) (s : State) : (accept r ret s).ph = .purging := rfl
@[simp] theorem accept_crcAcc (r : Request) (ret : Return) (s : State) : (accept r ret s).crcAcc = s.crcAcc := rfl
@[simp] theorem accept_txBuf (r : Request) (ret : Return) (s : State) : (accept r ret s).txBuf = s.txBuf := rfl
@[simp] theorem accept_txLen (r : Request) (ret : Return) (s : State) : (accept r ret s).txLen = s.txLen := rfl
@[simp] theorem accept_rxHdr (r : Request) (ret : Return) (s : State) : (accept r ret s).rxHdr = s.rxHdr := rfl
@[simp] theorem accept_rxHCnt (r : Request) (ret : Return) (s : State) : (accept r ret s).rxHCnt = s.rxHCnt := rfl
@[simp] theorem accept_rxPay (r : Request) (ret : Return) (s : State) : (accept r ret s).rxPay = s.rxPay := rfl
@[simp] theorem accept_rxPLen (r : Request) (ret : Return) (s : State) : (accept r ret s).rxPLen = s.rxPLen := rfl
@[simp] theorem accept_rxPCnt (r : Request) (ret : Return) (s : State) : (accept r ret s).rxPCnt = s.rxPCnt := rfl
@[simp] theorem accept_rxPCrc (r : Request) (ret : Return) (s : State) : (accept r ret s).rxPCrc = s.rxPCrc := rfl
@[simp] theorem accept_rxCCnt (r : Request) (ret : Return) (s : State) : (accept r ret s).rxCCnt = s.rxCCnt := rfl
@[simp] theorem accept_op (r : Request) (ret : Return) (s : State) : (accept r ret s).op = some (latch s.seq r) := rfl
@[simp] theorem accept_ret (r : Request) (ret : Return) (s : State) : (accept r ret s).ret = ret := rfl
@[simp] theorem accept_hcrcCalc (r : Request) (ret : Return) (s : State) : (accept r ret s).hcrcCalc = s.hcrcCalc := rfl
@[simp] theorem accept_hcrcRecv (r : Request) (ret : Return) (s : State) : (accept r ret s).hcrcRecv = s.hcrcRecv := rfl
@[simp] theorem accept_hcrcOk (r : Request) (ret : Return) (s : State) : (accept r ret s).hcrcOk = s.hcrcOk := rfl
@[simp] theorem accept_hcrcValid (r : Request) (ret : Return) (s : State) : (accept r ret s).hcrcValid = false := rfl
@[simp] theorem accept_pcrcCalc (r : Request) (ret : Return) (s : State) : (accept r ret s).pcrcCalc = s.pcrcCalc := rfl
@[simp] theorem accept_pcrcRecv (r : Request) (ret : Return) (s : State) : (accept r ret s).pcrcRecv = s.pcrcRecv := rfl
@[simp] theorem accept_pcrcOk (r : Request) (ret : Return) (s : State) : (accept r ret s).pcrcOk = s.pcrcOk := rfl
@[simp] theorem accept_pcrcValid (r : Request) (ret : Return) (s : State) : (accept r ret s).pcrcValid = false := rfl
@[simp] theorem accept_res (r : Request) (ret : Return) (s : State) : (accept r ret s).res = none := rfl
@[simp] theorem accept_rval (r : Request) (ret : Return) (s : State) : (accept r ret s).rval = none := rfl
@[simp] theorem accept_rframe (r : Request) (ret : Return) (s : State) : (accept r ret s).rframe = none := rfl
@[simp] theorem accept_trace (r : Request) (ret : Return) (s : State) : (accept r ret s).trace = s.trace := rfl
@[simp] theorem accept_line (r : Request) (ret : Return) (s : State) : (accept r ret s).line = s.line := rfl
@[simp] theorem accept_inbox (r : Request) (ret : Return) (s : State) : (accept r ret s).inbox = s.inbox := rfl
@[simp] theorem accept_syncPending (r : Request) (ret : Return) (s : State) : (accept r ret s).syncPending = s.syncPending := rfl

/-! `ENCODE_REQUEST` on the state (R131). -/

@[simp] theorem loadRequest_cfg (q : Nibble) (r : Request) (s : State) : (loadRequest q r s).cfg = s.cfg := rfl
@[simp] theorem loadRequest_seq (q : Nibble) (r : Request) (s : State) : (loadRequest q r s).seq = s.seq := rfl
@[simp] theorem loadRequest_ph (q : Nibble) (r : Request) (s : State) : (loadRequest q r s).ph = s.ph := rfl
@[simp] theorem loadRequest_crcAcc (q : Nibble) (r : Request) (s : State) : (loadRequest q r s).crcAcc = some (requestCrcAcc q r) := rfl
@[simp] theorem loadRequest_txBuf (q : Nibble) (r : Request) (s : State) : (loadRequest q r s).txBuf = putFront s.txBuf (encodeRequest q r) := rfl
@[simp] theorem loadRequest_txLen (q : Nibble) (r : Request) (s : State) : (loadRequest q r s).txLen = (encodeRequest q r).length := rfl
@[simp] theorem loadRequest_rxHdr (q : Nibble) (r : Request) (s : State) : (loadRequest q r s).rxHdr = s.rxHdr := rfl
@[simp] theorem loadRequest_rxHCnt (q : Nibble) (r : Request) (s : State) : (loadRequest q r s).rxHCnt = s.rxHCnt := rfl
@[simp] theorem loadRequest_rxPay (q : Nibble) (r : Request) (s : State) : (loadRequest q r s).rxPay = s.rxPay := rfl
@[simp] theorem loadRequest_rxPLen (q : Nibble) (r : Request) (s : State) : (loadRequest q r s).rxPLen = s.rxPLen := rfl
@[simp] theorem loadRequest_rxPCnt (q : Nibble) (r : Request) (s : State) : (loadRequest q r s).rxPCnt = s.rxPCnt := rfl
@[simp] theorem loadRequest_rxPCrc (q : Nibble) (r : Request) (s : State) : (loadRequest q r s).rxPCrc = s.rxPCrc := rfl
@[simp] theorem loadRequest_rxCCnt (q : Nibble) (r : Request) (s : State) : (loadRequest q r s).rxCCnt = s.rxCCnt := rfl
@[simp] theorem loadRequest_op (q : Nibble) (r : Request) (s : State) : (loadRequest q r s).op = s.op := rfl
@[simp] theorem loadRequest_ret (q : Nibble) (r : Request) (s : State) : (loadRequest q r s).ret = s.ret := rfl
@[simp] theorem loadRequest_hcrcCalc (q : Nibble) (r : Request) (s : State) : (loadRequest q r s).hcrcCalc = s.hcrcCalc := rfl
@[simp] theorem loadRequest_hcrcRecv (q : Nibble) (r : Request) (s : State) : (loadRequest q r s).hcrcRecv = s.hcrcRecv := rfl
@[simp] theorem loadRequest_hcrcOk (q : Nibble) (r : Request) (s : State) : (loadRequest q r s).hcrcOk = s.hcrcOk := rfl
@[simp] theorem loadRequest_hcrcValid (q : Nibble) (r : Request) (s : State) : (loadRequest q r s).hcrcValid = s.hcrcValid := rfl
@[simp] theorem loadRequest_pcrcCalc (q : Nibble) (r : Request) (s : State) : (loadRequest q r s).pcrcCalc = s.pcrcCalc := rfl
@[simp] theorem loadRequest_pcrcRecv (q : Nibble) (r : Request) (s : State) : (loadRequest q r s).pcrcRecv = s.pcrcRecv := rfl
@[simp] theorem loadRequest_pcrcOk (q : Nibble) (r : Request) (s : State) : (loadRequest q r s).pcrcOk = s.pcrcOk := rfl
@[simp] theorem loadRequest_pcrcValid (q : Nibble) (r : Request) (s : State) : (loadRequest q r s).pcrcValid = s.pcrcValid := rfl
@[simp] theorem loadRequest_res (q : Nibble) (r : Request) (s : State) : (loadRequest q r s).res = s.res := rfl
@[simp] theorem loadRequest_rval (q : Nibble) (r : Request) (s : State) : (loadRequest q r s).rval = s.rval := rfl
@[simp] theorem loadRequest_rframe (q : Nibble) (r : Request) (s : State) : (loadRequest q r s).rframe = s.rframe := rfl
@[simp] theorem loadRequest_trace (q : Nibble) (r : Request) (s : State) : (loadRequest q r s).trace = s.trace := rfl
@[simp] theorem loadRequest_line (q : Nibble) (r : Request) (s : State) : (loadRequest q r s).line = s.line := rfl
@[simp] theorem loadRequest_inbox (q : Nibble) (r : Request) (s : State) : (loadRequest q r s).inbox = s.inbox := rfl
@[simp] theorem loadRequest_syncPending (q : Nibble) (r : Request) (s : State) : (loadRequest q r s).syncPending = s.syncPending := rfl

/-! `T.flush` (R14). -/

@[simp] theorem tFlush_cfg (s : State) : (tFlush s).cfg = s.cfg := rfl
@[simp] theorem tFlush_seq (s : State) : (tFlush s).seq = s.seq := rfl
@[simp] theorem tFlush_ph (s : State) : (tFlush s).ph = s.ph := rfl
@[simp] theorem tFlush_crcAcc (s : State) : (tFlush s).crcAcc = s.crcAcc := rfl
@[simp] theorem tFlush_txBuf (s : State) : (tFlush s).txBuf = s.txBuf := rfl
@[simp] theorem tFlush_txLen (s : State) : (tFlush s).txLen = s.txLen := rfl
@[simp] theorem tFlush_rxHdr (s : State) : (tFlush s).rxHdr = s.rxHdr := rfl
@[simp] theorem tFlush_rxHCnt (s : State) : (tFlush s).rxHCnt = s.rxHCnt := rfl
@[simp] theorem tFlush_rxPay (s : State) : (tFlush s).rxPay = s.rxPay := rfl
@[simp] theorem tFlush_rxPLen (s : State) : (tFlush s).rxPLen = s.rxPLen := rfl
@[simp] theorem tFlush_rxPCnt (s : State) : (tFlush s).rxPCnt = s.rxPCnt := rfl
@[simp] theorem tFlush_rxPCrc (s : State) : (tFlush s).rxPCrc = s.rxPCrc := rfl
@[simp] theorem tFlush_rxCCnt (s : State) : (tFlush s).rxCCnt = s.rxCCnt := rfl
@[simp] theorem tFlush_op (s : State) : (tFlush s).op = s.op := rfl
@[simp] theorem tFlush_ret (s : State) : (tFlush s).ret = s.ret := rfl
@[simp] theorem tFlush_hcrcCalc (s : State) : (tFlush s).hcrcCalc = s.hcrcCalc := rfl
@[simp] theorem tFlush_hcrcRecv (s : State) : (tFlush s).hcrcRecv = s.hcrcRecv := rfl
@[simp] theorem tFlush_hcrcOk (s : State) : (tFlush s).hcrcOk = s.hcrcOk := rfl
@[simp] theorem tFlush_hcrcValid (s : State) : (tFlush s).hcrcValid = s.hcrcValid := rfl
@[simp] theorem tFlush_pcrcCalc (s : State) : (tFlush s).pcrcCalc = s.pcrcCalc := rfl
@[simp] theorem tFlush_pcrcRecv (s : State) : (tFlush s).pcrcRecv = s.pcrcRecv := rfl
@[simp] theorem tFlush_pcrcOk (s : State) : (tFlush s).pcrcOk = s.pcrcOk := rfl
@[simp] theorem tFlush_pcrcValid (s : State) : (tFlush s).pcrcValid = s.pcrcValid := rfl
@[simp] theorem tFlush_res (s : State) : (tFlush s).res = s.res := rfl
@[simp] theorem tFlush_rval (s : State) : (tFlush s).rval = s.rval := rfl
@[simp] theorem tFlush_rframe (s : State) : (tFlush s).rframe = s.rframe := rfl
@[simp] theorem tFlush_trace (s : State) : (tFlush s).trace = s.trace ++ [.flush] := rfl
@[simp] theorem tFlush_line (s : State) : (tFlush s).line = s.line := rfl
@[simp] theorem tFlush_inbox (s : State) : (tFlush s).inbox = s.inbox := rfl
@[simp] theorem tFlush_syncPending (s : State) : (tFlush s).syncPending = s.syncPending := rfl

/-! `T.read1` (R14). -/

@[simp] theorem tRead1_cfg (a : ReadAnswer) (rest : List ReadAnswer) (s : State) : (tRead1 a rest s).cfg = s.cfg := rfl
@[simp] theorem tRead1_seq (a : ReadAnswer) (rest : List ReadAnswer) (s : State) : (tRead1 a rest s).seq = s.seq := rfl
@[simp] theorem tRead1_ph (a : ReadAnswer) (rest : List ReadAnswer) (s : State) : (tRead1 a rest s).ph = s.ph := rfl
@[simp] theorem tRead1_crcAcc (a : ReadAnswer) (rest : List ReadAnswer) (s : State) : (tRead1 a rest s).crcAcc = s.crcAcc := rfl
@[simp] theorem tRead1_txBuf (a : ReadAnswer) (rest : List ReadAnswer) (s : State) : (tRead1 a rest s).txBuf = s.txBuf := rfl
@[simp] theorem tRead1_txLen (a : ReadAnswer) (rest : List ReadAnswer) (s : State) : (tRead1 a rest s).txLen = s.txLen := rfl
@[simp] theorem tRead1_rxHdr (a : ReadAnswer) (rest : List ReadAnswer) (s : State) : (tRead1 a rest s).rxHdr = s.rxHdr := rfl
@[simp] theorem tRead1_rxHCnt (a : ReadAnswer) (rest : List ReadAnswer) (s : State) : (tRead1 a rest s).rxHCnt = s.rxHCnt := rfl
@[simp] theorem tRead1_rxPay (a : ReadAnswer) (rest : List ReadAnswer) (s : State) : (tRead1 a rest s).rxPay = s.rxPay := rfl
@[simp] theorem tRead1_rxPLen (a : ReadAnswer) (rest : List ReadAnswer) (s : State) : (tRead1 a rest s).rxPLen = s.rxPLen := rfl
@[simp] theorem tRead1_rxPCnt (a : ReadAnswer) (rest : List ReadAnswer) (s : State) : (tRead1 a rest s).rxPCnt = s.rxPCnt := rfl
@[simp] theorem tRead1_rxPCrc (a : ReadAnswer) (rest : List ReadAnswer) (s : State) : (tRead1 a rest s).rxPCrc = s.rxPCrc := rfl
@[simp] theorem tRead1_rxCCnt (a : ReadAnswer) (rest : List ReadAnswer) (s : State) : (tRead1 a rest s).rxCCnt = s.rxCCnt := rfl
@[simp] theorem tRead1_op (a : ReadAnswer) (rest : List ReadAnswer) (s : State) : (tRead1 a rest s).op = s.op := rfl
@[simp] theorem tRead1_ret (a : ReadAnswer) (rest : List ReadAnswer) (s : State) : (tRead1 a rest s).ret = s.ret := rfl
@[simp] theorem tRead1_hcrcCalc (a : ReadAnswer) (rest : List ReadAnswer) (s : State) : (tRead1 a rest s).hcrcCalc = s.hcrcCalc := rfl
@[simp] theorem tRead1_hcrcRecv (a : ReadAnswer) (rest : List ReadAnswer) (s : State) : (tRead1 a rest s).hcrcRecv = s.hcrcRecv := rfl
@[simp] theorem tRead1_hcrcOk (a : ReadAnswer) (rest : List ReadAnswer) (s : State) : (tRead1 a rest s).hcrcOk = s.hcrcOk := rfl
@[simp] theorem tRead1_hcrcValid (a : ReadAnswer) (rest : List ReadAnswer) (s : State) : (tRead1 a rest s).hcrcValid = s.hcrcValid := rfl
@[simp] theorem tRead1_pcrcCalc (a : ReadAnswer) (rest : List ReadAnswer) (s : State) : (tRead1 a rest s).pcrcCalc = s.pcrcCalc := rfl
@[simp] theorem tRead1_pcrcRecv (a : ReadAnswer) (rest : List ReadAnswer) (s : State) : (tRead1 a rest s).pcrcRecv = s.pcrcRecv := rfl
@[simp] theorem tRead1_pcrcOk (a : ReadAnswer) (rest : List ReadAnswer) (s : State) : (tRead1 a rest s).pcrcOk = s.pcrcOk := rfl
@[simp] theorem tRead1_pcrcValid (a : ReadAnswer) (rest : List ReadAnswer) (s : State) : (tRead1 a rest s).pcrcValid = s.pcrcValid := rfl
@[simp] theorem tRead1_res (a : ReadAnswer) (rest : List ReadAnswer) (s : State) : (tRead1 a rest s).res = s.res := rfl
@[simp] theorem tRead1_rval (a : ReadAnswer) (rest : List ReadAnswer) (s : State) : (tRead1 a rest s).rval = s.rval := rfl
@[simp] theorem tRead1_rframe (a : ReadAnswer) (rest : List ReadAnswer) (s : State) : (tRead1 a rest s).rframe = s.rframe := rfl
@[simp] theorem tRead1_trace (a : ReadAnswer) (rest : List ReadAnswer) (s : State) : (tRead1 a rest s).trace = s.trace ++ [.rx a] := rfl
@[simp] theorem tRead1_line (a : ReadAnswer) (rest : List ReadAnswer) (s : State) : (tRead1 a rest s).line = { s.line with rx := rest } := rfl
@[simp] theorem tRead1_inbox (a : ReadAnswer) (rest : List ReadAnswer) (s : State) : (tRead1 a rest s).inbox = s.inbox := rfl
@[simp] theorem tRead1_syncPending (a : ReadAnswer) (rest : List ReadAnswer) (s : State) : (tRead1 a rest s).syncPending = s.syncPending := rfl

/-! The entry of `DECODE_RESPONSE` (R137). -/

@[simp] theorem startDecode_cfg (s : State) : (startDecode s).cfg = s.cfg := rfl
@[simp] theorem startDecode_seq (s : State) : (startDecode s).seq = s.seq := rfl
@[simp] theorem startDecode_ph (s : State) : (startDecode s).ph = .rxHeader := rfl
@[simp] theorem startDecode_crcAcc (s : State) : (startDecode s).crcAcc = s.crcAcc := rfl
@[simp] theorem startDecode_txBuf (s : State) : (startDecode s).txBuf = s.txBuf := rfl
@[simp] theorem startDecode_txLen (s : State) : (startDecode s).txLen = s.txLen := rfl
@[simp] theorem startDecode_rxHdr (s : State) : (startDecode s).rxHdr = s.rxHdr := rfl
@[simp] theorem startDecode_rxHCnt (s : State) : (startDecode s).rxHCnt = 0 := rfl
@[simp] theorem startDecode_rxPay (s : State) : (startDecode s).rxPay = s.rxPay := rfl
@[simp] theorem startDecode_rxPLen (s : State) : (startDecode s).rxPLen = 0 := rfl
@[simp] theorem startDecode_rxPCnt (s : State) : (startDecode s).rxPCnt = 0 := rfl
@[simp] theorem startDecode_rxPCrc (s : State) : (startDecode s).rxPCrc = s.rxPCrc := rfl
@[simp] theorem startDecode_rxCCnt (s : State) : (startDecode s).rxCCnt = 0 := rfl
@[simp] theorem startDecode_op (s : State) : (startDecode s).op = s.op := rfl
@[simp] theorem startDecode_ret (s : State) : (startDecode s).ret = s.ret := rfl
@[simp] theorem startDecode_hcrcCalc (s : State) : (startDecode s).hcrcCalc = s.hcrcCalc := rfl
@[simp] theorem startDecode_hcrcRecv (s : State) : (startDecode s).hcrcRecv = s.hcrcRecv := rfl
@[simp] theorem startDecode_hcrcOk (s : State) : (startDecode s).hcrcOk = s.hcrcOk := rfl
@[simp] theorem startDecode_hcrcValid (s : State) : (startDecode s).hcrcValid = s.hcrcValid := rfl
@[simp] theorem startDecode_pcrcCalc (s : State) : (startDecode s).pcrcCalc = s.pcrcCalc := rfl
@[simp] theorem startDecode_pcrcRecv (s : State) : (startDecode s).pcrcRecv = s.pcrcRecv := rfl
@[simp] theorem startDecode_pcrcOk (s : State) : (startDecode s).pcrcOk = s.pcrcOk := rfl
@[simp] theorem startDecode_pcrcValid (s : State) : (startDecode s).pcrcValid = s.pcrcValid := rfl
@[simp] theorem startDecode_res (s : State) : (startDecode s).res = s.res := rfl
@[simp] theorem startDecode_rval (s : State) : (startDecode s).rval = s.rval := rfl
@[simp] theorem startDecode_rframe (s : State) : (startDecode s).rframe = s.rframe := rfl
@[simp] theorem startDecode_trace (s : State) : (startDecode s).trace = s.trace := rfl
@[simp] theorem startDecode_line (s : State) : (startDecode s).line = s.line := rfl
@[simp] theorem startDecode_inbox (s : State) : (startDecode s).inbox = s.inbox := rfl
@[simp] theorem startDecode_syncPending (s : State) : (startDecode s).syncPending = s.syncPending := rfl

/-! The phase `Flushing` (R170). -/

@[simp] theorem flushPhase_cfg (s : State) : (flushPhase s).cfg = s.cfg := rfl
@[simp] theorem flushPhase_seq (s : State) : (flushPhase s).seq = s.seq := rfl
@[simp] theorem flushPhase_ph (s : State) : (flushPhase s).ph = .rxHeader := rfl
@[simp] theorem flushPhase_crcAcc (s : State) : (flushPhase s).crcAcc = s.crcAcc := rfl
@[simp] theorem flushPhase_txBuf (s : State) : (flushPhase s).txBuf = s.txBuf := rfl
@[simp] theorem flushPhase_txLen (s : State) : (flushPhase s).txLen = s.txLen := rfl
@[simp] theorem flushPhase_rxHdr (s : State) : (flushPhase s).rxHdr = s.rxHdr := rfl
@[simp] theorem flushPhase_rxHCnt (s : State) : (flushPhase s).rxHCnt = 0 := rfl
@[simp] theorem flushPhase_rxPay (s : State) : (flushPhase s).rxPay = s.rxPay := rfl
@[simp] theorem flushPhase_rxPLen (s : State) : (flushPhase s).rxPLen = 0 := rfl
@[simp] theorem flushPhase_rxPCnt (s : State) : (flushPhase s).rxPCnt = 0 := rfl
@[simp] theorem flushPhase_rxPCrc (s : State) : (flushPhase s).rxPCrc = s.rxPCrc := rfl
@[simp] theorem flushPhase_rxCCnt (s : State) : (flushPhase s).rxCCnt = 0 := rfl
@[simp] theorem flushPhase_op (s : State) : (flushPhase s).op = s.op := rfl
@[simp] theorem flushPhase_ret (s : State) : (flushPhase s).ret = s.ret := rfl
@[simp] theorem flushPhase_hcrcCalc (s : State) : (flushPhase s).hcrcCalc = s.hcrcCalc := rfl
@[simp] theorem flushPhase_hcrcRecv (s : State) : (flushPhase s).hcrcRecv = s.hcrcRecv := rfl
@[simp] theorem flushPhase_hcrcOk (s : State) : (flushPhase s).hcrcOk = s.hcrcOk := rfl
@[simp] theorem flushPhase_hcrcValid (s : State) : (flushPhase s).hcrcValid = s.hcrcValid := rfl
@[simp] theorem flushPhase_pcrcCalc (s : State) : (flushPhase s).pcrcCalc = s.pcrcCalc := rfl
@[simp] theorem flushPhase_pcrcRecv (s : State) : (flushPhase s).pcrcRecv = s.pcrcRecv := rfl
@[simp] theorem flushPhase_pcrcOk (s : State) : (flushPhase s).pcrcOk = s.pcrcOk := rfl
@[simp] theorem flushPhase_pcrcValid (s : State) : (flushPhase s).pcrcValid = s.pcrcValid := rfl
@[simp] theorem flushPhase_res (s : State) : (flushPhase s).res = s.res := rfl
@[simp] theorem flushPhase_rval (s : State) : (flushPhase s).rval = s.rval := rfl
@[simp] theorem flushPhase_rframe (s : State) : (flushPhase s).rframe = s.rframe := rfl
@[simp] theorem flushPhase_trace (s : State) : (flushPhase s).trace = s.trace ++ [.flush] := rfl
@[simp] theorem flushPhase_line (s : State) : (flushPhase s).line = s.line := rfl
@[simp] theorem flushPhase_inbox (s : State) : (flushPhase s).inbox = s.inbox := rfl
@[simp] theorem flushPhase_syncPending (s : State) : (flushPhase s).syncPending = s.syncPending := rfl

/-! The header CRC diagnostic (R140). -/

@[simp] theorem setHeaderCrcFlags_cfg (s : State) : (setHeaderCrcFlags s).cfg = s.cfg := rfl
@[simp] theorem setHeaderCrcFlags_seq (s : State) : (setHeaderCrcFlags s).seq = s.seq := rfl
@[simp] theorem setHeaderCrcFlags_ph (s : State) : (setHeaderCrcFlags s).ph = s.ph := rfl
@[simp] theorem setHeaderCrcFlags_crcAcc (s : State) : (setHeaderCrcFlags s).crcAcc = some (crc16 (rxHeaderBytes s)) := rfl
@[simp] theorem setHeaderCrcFlags_txBuf (s : State) : (setHeaderCrcFlags s).txBuf = s.txBuf := rfl
@[simp] theorem setHeaderCrcFlags_txLen (s : State) : (setHeaderCrcFlags s).txLen = s.txLen := rfl
@[simp] theorem setHeaderCrcFlags_rxHdr (s : State) : (setHeaderCrcFlags s).rxHdr = s.rxHdr := rfl
@[simp] theorem setHeaderCrcFlags_rxHCnt (s : State) : (setHeaderCrcFlags s).rxHCnt = s.rxHCnt := rfl
@[simp] theorem setHeaderCrcFlags_rxPay (s : State) : (setHeaderCrcFlags s).rxPay = s.rxPay := rfl
@[simp] theorem setHeaderCrcFlags_rxPLen (s : State) : (setHeaderCrcFlags s).rxPLen = s.rxPLen := rfl
@[simp] theorem setHeaderCrcFlags_rxPCnt (s : State) : (setHeaderCrcFlags s).rxPCnt = s.rxPCnt := rfl
@[simp] theorem setHeaderCrcFlags_rxPCrc (s : State) : (setHeaderCrcFlags s).rxPCrc = s.rxPCrc := rfl
@[simp] theorem setHeaderCrcFlags_rxCCnt (s : State) : (setHeaderCrcFlags s).rxCCnt = s.rxCCnt := rfl
@[simp] theorem setHeaderCrcFlags_op (s : State) : (setHeaderCrcFlags s).op = s.op := rfl
@[simp] theorem setHeaderCrcFlags_ret (s : State) : (setHeaderCrcFlags s).ret = s.ret := rfl
@[simp] theorem setHeaderCrcFlags_hcrcCalc (s : State) : (setHeaderCrcFlags s).hcrcCalc = some (crc16 (rxHeaderBytes s)) := rfl
@[simp] theorem setHeaderCrcFlags_hcrcRecv (s : State) : (setHeaderCrcFlags s).hcrcRecv = some (rxHeaderCrc s) := rfl
@[simp] theorem setHeaderCrcFlags_hcrcOk (s : State) : (setHeaderCrcFlags s).hcrcOk = some (crc16 (rxHeaderBytes s) == rxHeaderCrc s) := rfl
@[simp] theorem setHeaderCrcFlags_hcrcValid (s : State) : (setHeaderCrcFlags s).hcrcValid = true := rfl
@[simp] theorem setHeaderCrcFlags_pcrcCalc (s : State) : (setHeaderCrcFlags s).pcrcCalc = s.pcrcCalc := rfl
@[simp] theorem setHeaderCrcFlags_pcrcRecv (s : State) : (setHeaderCrcFlags s).pcrcRecv = s.pcrcRecv := rfl
@[simp] theorem setHeaderCrcFlags_pcrcOk (s : State) : (setHeaderCrcFlags s).pcrcOk = s.pcrcOk := rfl
@[simp] theorem setHeaderCrcFlags_pcrcValid (s : State) : (setHeaderCrcFlags s).pcrcValid = s.pcrcValid := rfl
@[simp] theorem setHeaderCrcFlags_res (s : State) : (setHeaderCrcFlags s).res = s.res := rfl
@[simp] theorem setHeaderCrcFlags_rval (s : State) : (setHeaderCrcFlags s).rval = s.rval := rfl
@[simp] theorem setHeaderCrcFlags_rframe (s : State) : (setHeaderCrcFlags s).rframe = s.rframe := rfl
@[simp] theorem setHeaderCrcFlags_trace (s : State) : (setHeaderCrcFlags s).trace = s.trace := rfl
@[simp] theorem setHeaderCrcFlags_line (s : State) : (setHeaderCrcFlags s).line = s.line := rfl
@[simp] theorem setHeaderCrcFlags_inbox (s : State) : (setHeaderCrcFlags s).inbox = s.inbox := rfl
@[simp] theorem setHeaderCrcFlags_syncPending (s : State) : (setHeaderCrcFlags s).syncPending = s.syncPending := rfl

/-! The payload CRC diagnostic (R144). -/

@[simp] theorem setPayloadCrcFlags_cfg (s : State) : (setPayloadCrcFlags s).cfg = s.cfg := rfl
@[simp] theorem setPayloadCrcFlags_seq (s : State) : (setPayloadCrcFlags s).seq = s.seq := rfl
@[simp] theorem setPayloadCrcFlags_ph (s : State) : (setPayloadCrcFlags s).ph = s.ph := rfl
@[simp] theorem setPayloadCrcFlags_crcAcc (s : State) : (setPayloadCrcFlags s).crcAcc = some (crc16 (rxPayloadBytes s)) := rfl
@[simp] theorem setPayloadCrcFlags_txBuf (s : State) : (setPayloadCrcFlags s).txBuf = s.txBuf := rfl
@[simp] theorem setPayloadCrcFlags_txLen (s : State) : (setPayloadCrcFlags s).txLen = s.txLen := rfl
@[simp] theorem setPayloadCrcFlags_rxHdr (s : State) : (setPayloadCrcFlags s).rxHdr = s.rxHdr := rfl
@[simp] theorem setPayloadCrcFlags_rxHCnt (s : State) : (setPayloadCrcFlags s).rxHCnt = s.rxHCnt := rfl
@[simp] theorem setPayloadCrcFlags_rxPay (s : State) : (setPayloadCrcFlags s).rxPay = s.rxPay := rfl
@[simp] theorem setPayloadCrcFlags_rxPLen (s : State) : (setPayloadCrcFlags s).rxPLen = s.rxPLen := rfl
@[simp] theorem setPayloadCrcFlags_rxPCnt (s : State) : (setPayloadCrcFlags s).rxPCnt = s.rxPCnt := rfl
@[simp] theorem setPayloadCrcFlags_rxPCrc (s : State) : (setPayloadCrcFlags s).rxPCrc = s.rxPCrc := rfl
@[simp] theorem setPayloadCrcFlags_rxCCnt (s : State) : (setPayloadCrcFlags s).rxCCnt = s.rxCCnt := rfl
@[simp] theorem setPayloadCrcFlags_op (s : State) : (setPayloadCrcFlags s).op = s.op := rfl
@[simp] theorem setPayloadCrcFlags_ret (s : State) : (setPayloadCrcFlags s).ret = s.ret := rfl
@[simp] theorem setPayloadCrcFlags_hcrcCalc (s : State) : (setPayloadCrcFlags s).hcrcCalc = s.hcrcCalc := rfl
@[simp] theorem setPayloadCrcFlags_hcrcRecv (s : State) : (setPayloadCrcFlags s).hcrcRecv = s.hcrcRecv := rfl
@[simp] theorem setPayloadCrcFlags_hcrcOk (s : State) : (setPayloadCrcFlags s).hcrcOk = s.hcrcOk := rfl
@[simp] theorem setPayloadCrcFlags_hcrcValid (s : State) : (setPayloadCrcFlags s).hcrcValid = s.hcrcValid := rfl
@[simp] theorem setPayloadCrcFlags_pcrcCalc (s : State) : (setPayloadCrcFlags s).pcrcCalc = some (crc16 (rxPayloadBytes s)) := rfl
@[simp] theorem setPayloadCrcFlags_pcrcRecv (s : State) : (setPayloadCrcFlags s).pcrcRecv = some (rxPayloadCrc s) := rfl
@[simp] theorem setPayloadCrcFlags_pcrcOk (s : State) : (setPayloadCrcFlags s).pcrcOk = some (crc16 (rxPayloadBytes s) == rxPayloadCrc s) := rfl
@[simp] theorem setPayloadCrcFlags_pcrcValid (s : State) : (setPayloadCrcFlags s).pcrcValid = true := rfl
@[simp] theorem setPayloadCrcFlags_res (s : State) : (setPayloadCrcFlags s).res = s.res := rfl
@[simp] theorem setPayloadCrcFlags_rval (s : State) : (setPayloadCrcFlags s).rval = s.rval := rfl
@[simp] theorem setPayloadCrcFlags_rframe (s : State) : (setPayloadCrcFlags s).rframe = s.rframe := rfl
@[simp] theorem setPayloadCrcFlags_trace (s : State) : (setPayloadCrcFlags s).trace = s.trace := rfl
@[simp] theorem setPayloadCrcFlags_line (s : State) : (setPayloadCrcFlags s).line = s.line := rfl
@[simp] theorem setPayloadCrcFlags_inbox (s : State) : (setPayloadCrcFlags s).inbox = s.inbox := rfl
@[simp] theorem setPayloadCrcFlags_syncPending (s : State) : (setPayloadCrcFlags s).syncPending = s.syncPending := rfl

/-! Reset of the block (R240). -/

@[simp] theorem resetBlock_cfg (s : State) : (resetBlock s).cfg = s.cfg := rfl
@[simp] theorem resetBlock_seq (s : State) : (resetBlock s).seq = s.cfg.seqReset := rfl
@[simp] theorem resetBlock_ph (s : State) : (resetBlock s).ph = .idle := rfl
@[simp] theorem resetBlock_crcAcc (s : State) : (resetBlock s).crcAcc = none := rfl
@[simp] theorem resetBlock_txBuf (s : State) : (resetBlock s).txBuf = [] := rfl
@[simp] theorem resetBlock_txLen (s : State) : (resetBlock s).txLen = 0 := rfl
@[simp] theorem resetBlock_rxHdr (s : State) : (resetBlock s).rxHdr = [] := rfl
@[simp] theorem resetBlock_rxHCnt (s : State) : (resetBlock s).rxHCnt = 0 := rfl
@[simp] theorem resetBlock_rxPay (s : State) : (resetBlock s).rxPay = [] := rfl
@[simp] theorem resetBlock_rxPLen (s : State) : (resetBlock s).rxPLen = 0 := rfl
@[simp] theorem resetBlock_rxPCnt (s : State) : (resetBlock s).rxPCnt = 0 := rfl
@[simp] theorem resetBlock_rxPCrc (s : State) : (resetBlock s).rxPCrc = [] := rfl
@[simp] theorem resetBlock_rxCCnt (s : State) : (resetBlock s).rxCCnt = 0 := rfl
@[simp] theorem resetBlock_op (s : State) : (resetBlock s).op = none := rfl
@[simp] theorem resetBlock_ret (s : State) : (resetBlock s).ret = .nothing := rfl
@[simp] theorem resetBlock_hcrcCalc (s : State) : (resetBlock s).hcrcCalc = none := rfl
@[simp] theorem resetBlock_hcrcRecv (s : State) : (resetBlock s).hcrcRecv = none := rfl
@[simp] theorem resetBlock_hcrcOk (s : State) : (resetBlock s).hcrcOk = none := rfl
@[simp] theorem resetBlock_hcrcValid (s : State) : (resetBlock s).hcrcValid = false := rfl
@[simp] theorem resetBlock_pcrcCalc (s : State) : (resetBlock s).pcrcCalc = none := rfl
@[simp] theorem resetBlock_pcrcRecv (s : State) : (resetBlock s).pcrcRecv = none := rfl
@[simp] theorem resetBlock_pcrcOk (s : State) : (resetBlock s).pcrcOk = none := rfl
@[simp] theorem resetBlock_pcrcValid (s : State) : (resetBlock s).pcrcValid = false := rfl
@[simp] theorem resetBlock_res (s : State) : (resetBlock s).res = none := rfl
@[simp] theorem resetBlock_rval (s : State) : (resetBlock s).rval = none := rfl
@[simp] theorem resetBlock_rframe (s : State) : (resetBlock s).rframe = none := rfl
@[simp] theorem resetBlock_trace (s : State) : (resetBlock s).trace = s.trace := rfl
@[simp] theorem resetBlock_line (s : State) : (resetBlock s).line = s.line := rfl
@[simp] theorem resetBlock_inbox (s : State) : (resetBlock s).inbox = s.inbox := rfl
@[simp] theorem resetBlock_syncPending (s : State) : (resetBlock s).syncPending = false := rfl

/-! What the updates leave of the received bytes. -/

@[simp] theorem record_hdrByte (e : Event) (s : State) (i : Nat) : hdrByte (record e s) i = hdrByte s i := rfl
@[simp] theorem record_rxHeaderBytes (e : Event) (s : State) : rxHeaderBytes (record e s) = rxHeaderBytes s := rfl
@[simp] theorem record_rxHeaderCrc (e : Event) (s : State) : rxHeaderCrc (record e s) = rxHeaderCrc s := rfl
@[simp] theorem record_rxPayloadCrc (e : Event) (s : State) : rxPayloadCrc (record e s) = rxPayloadCrc s := rfl
@[simp] theorem record_rxPayloadBytes (e : Event) (s : State) : rxPayloadBytes (record e s) = rxPayloadBytes s := rfl
@[simp] theorem clearCrcFlags_hdrByte (s : State) (i : Nat) : hdrByte (clearCrcFlags s) i = hdrByte s i := rfl
@[simp] theorem clearCrcFlags_rxHeaderBytes (s : State) : rxHeaderBytes (clearCrcFlags s) = rxHeaderBytes s := rfl
@[simp] theorem clearCrcFlags_rxHeaderCrc (s : State) : rxHeaderCrc (clearCrcFlags s) = rxHeaderCrc s := rfl
@[simp] theorem clearCrcFlags_rxPayloadCrc (s : State) : rxPayloadCrc (clearCrcFlags s) = rxPayloadCrc s := rfl
@[simp] theorem clearCrcFlags_rxPayloadBytes (s : State) : rxPayloadBytes (clearCrcFlags s) = rxPayloadBytes s := rfl
@[simp] theorem raise_hdrByte (e : ResultCode) (s : State) (i : Nat) : hdrByte (raise e s) i = hdrByte s i := rfl
@[simp] theorem raise_rxHeaderBytes (e : ResultCode) (s : State) : rxHeaderBytes (raise e s) = rxHeaderBytes s := rfl
@[simp] theorem raise_rxHeaderCrc (e : ResultCode) (s : State) : rxHeaderCrc (raise e s) = rxHeaderCrc s := rfl
@[simp] theorem raise_rxPayloadCrc (e : ResultCode) (s : State) : rxPayloadCrc (raise e s) = rxPayloadCrc s := rfl
@[simp] theorem raise_rxPayloadBytes (e : ResultCode) (s : State) : rxPayloadBytes (raise e s) = rxPayloadBytes s := rfl
@[simp] theorem accept_hdrByte (r : Request) (ret : Return) (s : State) (i : Nat) : hdrByte (accept r ret s) i = hdrByte s i := rfl
@[simp] theorem accept_rxHeaderBytes (r : Request) (ret : Return) (s : State) : rxHeaderBytes (accept r ret s) = rxHeaderBytes s := rfl
@[simp] theorem accept_rxHeaderCrc (r : Request) (ret : Return) (s : State) : rxHeaderCrc (accept r ret s) = rxHeaderCrc s := rfl
@[simp] theorem accept_rxPayloadCrc (r : Request) (ret : Return) (s : State) : rxPayloadCrc (accept r ret s) = rxPayloadCrc s := rfl
@[simp] theorem accept_rxPayloadBytes (r : Request) (ret : Return) (s : State) : rxPayloadBytes (accept r ret s) = rxPayloadBytes s := rfl
@[simp] theorem loadRequest_hdrByte (q : Nibble) (r : Request) (s : State) (i : Nat) : hdrByte (loadRequest q r s) i = hdrByte s i := rfl
@[simp] theorem loadRequest_rxHeaderBytes (q : Nibble) (r : Request) (s : State) : rxHeaderBytes (loadRequest q r s) = rxHeaderBytes s := rfl
@[simp] theorem loadRequest_rxHeaderCrc (q : Nibble) (r : Request) (s : State) : rxHeaderCrc (loadRequest q r s) = rxHeaderCrc s := rfl
@[simp] theorem loadRequest_rxPayloadCrc (q : Nibble) (r : Request) (s : State) : rxPayloadCrc (loadRequest q r s) = rxPayloadCrc s := rfl
@[simp] theorem loadRequest_rxPayloadBytes (q : Nibble) (r : Request) (s : State) : rxPayloadBytes (loadRequest q r s) = rxPayloadBytes s := rfl
@[simp] theorem tFlush_hdrByte (s : State) (i : Nat) : hdrByte (tFlush s) i = hdrByte s i := rfl
@[simp] theorem tFlush_rxHeaderBytes (s : State) : rxHeaderBytes (tFlush s) = rxHeaderBytes s := rfl
@[simp] theorem tFlush_rxHeaderCrc (s : State) : rxHeaderCrc (tFlush s) = rxHeaderCrc s := rfl
@[simp] theorem tFlush_rxPayloadCrc (s : State) : rxPayloadCrc (tFlush s) = rxPayloadCrc s := rfl
@[simp] theorem tFlush_rxPayloadBytes (s : State) : rxPayloadBytes (tFlush s) = rxPayloadBytes s := rfl
@[simp] theorem tRead1_hdrByte (a : ReadAnswer) (rest : List ReadAnswer) (s : State) (i : Nat) : hdrByte (tRead1 a rest s) i = hdrByte s i := rfl
@[simp] theorem tRead1_rxHeaderBytes (a : ReadAnswer) (rest : List ReadAnswer) (s : State) : rxHeaderBytes (tRead1 a rest s) = rxHeaderBytes s := rfl
@[simp] theorem tRead1_rxHeaderCrc (a : ReadAnswer) (rest : List ReadAnswer) (s : State) : rxHeaderCrc (tRead1 a rest s) = rxHeaderCrc s := rfl
@[simp] theorem tRead1_rxPayloadCrc (a : ReadAnswer) (rest : List ReadAnswer) (s : State) : rxPayloadCrc (tRead1 a rest s) = rxPayloadCrc s := rfl
@[simp] theorem tRead1_rxPayloadBytes (a : ReadAnswer) (rest : List ReadAnswer) (s : State) : rxPayloadBytes (tRead1 a rest s) = rxPayloadBytes s := rfl
@[simp] theorem startDecode_hdrByte (s : State) (i : Nat) : hdrByte (startDecode s) i = hdrByte s i := rfl
@[simp] theorem startDecode_rxHeaderBytes (s : State) : rxHeaderBytes (startDecode s) = rxHeaderBytes s := rfl
@[simp] theorem startDecode_rxHeaderCrc (s : State) : rxHeaderCrc (startDecode s) = rxHeaderCrc s := rfl
@[simp] theorem startDecode_rxPayloadCrc (s : State) : rxPayloadCrc (startDecode s) = rxPayloadCrc s := rfl
@[simp] theorem flushPhase_hdrByte (s : State) (i : Nat) : hdrByte (flushPhase s) i = hdrByte s i := rfl
@[simp] theorem flushPhase_rxHeaderBytes (s : State) : rxHeaderBytes (flushPhase s) = rxHeaderBytes s := rfl
@[simp] theorem flushPhase_rxHeaderCrc (s : State) : rxHeaderCrc (flushPhase s) = rxHeaderCrc s := rfl
@[simp] theorem flushPhase_rxPayloadCrc (s : State) : rxPayloadCrc (flushPhase s) = rxPayloadCrc s := rfl
@[simp] theorem setHeaderCrcFlags_hdrByte (s : State) (i : Nat) : hdrByte (setHeaderCrcFlags s) i = hdrByte s i := rfl
@[simp] theorem setHeaderCrcFlags_rxHeaderBytes (s : State) : rxHeaderBytes (setHeaderCrcFlags s) = rxHeaderBytes s := rfl
@[simp] theorem setHeaderCrcFlags_rxHeaderCrc (s : State) : rxHeaderCrc (setHeaderCrcFlags s) = rxHeaderCrc s := rfl
@[simp] theorem setHeaderCrcFlags_rxPayloadCrc (s : State) : rxPayloadCrc (setHeaderCrcFlags s) = rxPayloadCrc s := rfl
@[simp] theorem setHeaderCrcFlags_rxPayloadBytes (s : State) : rxPayloadBytes (setHeaderCrcFlags s) = rxPayloadBytes s := rfl
@[simp] theorem setPayloadCrcFlags_hdrByte (s : State) (i : Nat) : hdrByte (setPayloadCrcFlags s) i = hdrByte s i := rfl
@[simp] theorem setPayloadCrcFlags_rxHeaderBytes (s : State) : rxHeaderBytes (setPayloadCrcFlags s) = rxHeaderBytes s := rfl
@[simp] theorem setPayloadCrcFlags_rxHeaderCrc (s : State) : rxHeaderCrc (setPayloadCrcFlags s) = rxHeaderCrc s := rfl
@[simp] theorem setPayloadCrcFlags_rxPayloadCrc (s : State) : rxPayloadCrc (setPayloadCrcFlags s) = rxPayloadCrc s := rfl
@[simp] theorem setPayloadCrcFlags_rxPayloadBytes (s : State) : rxPayloadBytes (setPayloadCrcFlags s) = rxPayloadBytes s := rfl

end Sys2Proof.Machine
end

