-- ==== Sys2Proof/Laws/Ops.lean ====
section
/-! SUPPORT. What the shared operations over the buffers and the transport can do, said once each. -/

namespace Sys2Proof.Machine

/-! Buffers (R22 to R25). -/

theorem length_putAt (buf : List Byte) (k : Nat) (b : Byte) (h : k ≤ buf.length) :
    (putAt buf k b).length = max buf.length (k + 1) := by
  simp only [putAt, List.length_append, List.length_take, List.length_cons, List.length_drop]
  omega

theorem take_putAt (buf : List Byte) (k : Nat) (b : Byte) (h : k ≤ buf.length) :
    (putAt buf k b).take (k + 1) = buf.take k ++ [b] := by
  have hk : (buf.take k).length = k := by simp [h]
  have hs : putAt buf k b = (buf.take k ++ [b]) ++ buf.drop (k + 1) := by simp [putAt]
  rw [hs, List.take_append_of_le_length (by simp; omega), List.take_of_length_le (by simp)]

/-- Bytes stored one after the other stand together: what was stored first, then the byte, then what stood behind. -/
theorem putAt_stored (stored behind : List Byte) (b : Byte) :
    putAt (stored ++ behind) stored.length b = (stored ++ [b]) ++ behind.drop 1 := by
  have hd : (stored ++ behind).drop (stored.length + 1) = behind.drop 1 := by
    rw [← List.drop_drop, List.drop_left]
  simp only [putAt, List.take_left, hd, List.append_assoc, List.singleton_append]

@[simp] theorem length_putFront (buf f : List Byte) :
    (putFront buf f).length = max buf.length f.length := by
  simp only [putFront, List.length_append, List.length_drop]
  omega

@[simp] theorem take_putFront (buf f : List Byte) : (putFront buf f).take f.length = f := by
  simp [putFront]

@[simp] theorem txFrame_loadRequest (q : Nibble) (r : Request) (s : State) :
    txFrame (loadRequest q r s) = encodeRequest q r := by
  simp [txFrame]

/-! The latches are the operands of the encoder (R26, R131). -/

@[simp] theorem request_latch (q : Nibble) (r : Request) : (latch q r).request = r := by
  cases r with
  | mk dir idx off wc pay => cases pay <;> rfl

@[simp] theorem seq_latch (q : Nibble) (r : Request) : (latch q r).seq = q := rfl


/-! Transport primitives (R14). -/

theorem tPurge_cases {s t : State} {a : PurgeAnswer} (h : tPurge s = some (a, t)) :
    (a = .ok ∧ ∃ ps, s.line.purges = .ok :: ps ∧
      t = record (.purge .ok)
        { s with line := { s.line with purges := ps, rx := s.line.later.headD [], later := s.line.later.tail } }) ∨
    (a = .ioError ∧ ∃ ps, s.line.purges = .ioError :: ps ∧
      t = record (.purge .ioError) { s with line := { s.line with purges := ps } }) := by
  unfold tPurge at h
  split at h
  · cases h
  · next ps hp => cases h; exact .inl ⟨rfl, ps, hp, rfl⟩
  · next ps hp => cases h; exact .inr ⟨rfl, ps, hp, rfl⟩

theorem tPurge_eq_none {s : State} : tPurge s = none ↔ s.line.purges = [] := by
  unfold tPurge
  split <;> simp_all

theorem tWrite_cases {f : List Byte} {s t : State} {a : WriteAnswer} (h : tWrite f s = some (a, t)) :
    ∃ ws, s.line.writes = a :: ws ∧ t = record (.tx f a) { s with line := { s.line with writes := ws } } := by
  unfold tWrite at h
  split at h
  · cases h
  · next x ws hw => cases h; exact ⟨ws, hw, rfl⟩

theorem tWrite_eq_none {f : List Byte} {s : State} : tWrite f s = none ↔ s.line.writes = [] := by
  unfold tWrite
  split <;> simp_all

/-! The operands of the encoder (R26, R35). -/

@[simp] theorem operands_of_op {s : State} {op : Latches} (h : s.op = some op) : operands s = op := by
  simp [operands, h]

@[simp] theorem operands_record (e : Event) (s : State) : operands (record e s) = operands s := rfl

/-! The phases of `XACT` (R170). -/

/-- What phase `Purging` can do: fail with the purge, or load the request and go to `Sending`. -/
theorem purgePhase_cases {s : State} {o : Result} (h : purgePhase s = some o) :
    (∃ ps, s.line.purges = .ioError :: ps ∧
      o = .next (raise .transportError (record (.purge .ioError) { s with line := { s.line with purges := ps } }))) ∨
    (∃ ps, s.line.purges = .ok :: ps ∧
      o = .next { loadRequest (operands s).seq (operands s).request (record (.purge .ok)
        { s with line := { s.line with purges := ps, rx := s.line.later.headD [], later := s.line.later.tail } })
          with ph := .sending }) := by
  unfold purgePhase at h
  split at h
  · cases h
  · next t ht =>
    rcases tPurge_cases ht with ⟨ha, _⟩ | ⟨_, ps, hp, rfl⟩
    · cases ha
    · cases h; exact .inl ⟨ps, hp, rfl⟩
  · next t ht =>
    rcases tPurge_cases ht with ⟨_, ps, hp, rfl⟩ | ⟨ha, _⟩
    · cases h; exact .inr ⟨ps, hp, rfl⟩
    · cases ha

theorem purgePhase_eq_none {s : State} : purgePhase s = none ↔ s.line.purges = [] := by
  constructor
  · intro h
    unfold purgePhase at h
    split at h
    · next ht => exact tPurge_eq_none.mp ht
    · cases h
    · cases h
  · intro h
    simp [purgePhase, tPurge_eq_none.mpr h]

/-- What phase `Sending` can do: hand over the frame and go to `Flushing` when all of it is taken, else fail. -/
theorem sendPhase_cases {s : State} {o : Result} (h : sendPhase s = some o) :
    (∃ ws, s.line.writes = .written (txFrame s).length :: ws ∧
      o = .next { record (.tx (txFrame s) (.written (txFrame s).length))
        { s with line := { s.line with writes := ws } } with ph := .flushing }) ∨
    (∃ a ws, s.line.writes = a :: ws ∧ a ≠ .written (txFrame s).length ∧
      o = .next (raise .transportError (record (.tx (txFrame s) a) { s with line := { s.line with writes := ws } }))) := by
  unfold sendPhase at h
  split at h
  · cases h
  · next a t ht =>
    obtain ⟨ws, hw, rfl⟩ := tWrite_cases ht
    split at h
    · next ha => subst ha; cases h; exact .inl ⟨ws, hw, rfl⟩
    · next ha => cases h; exact .inr ⟨a, ws, hw, ha, rfl⟩

theorem sendPhase_eq_none {s : State} : sendPhase s = none ↔ s.line.writes = [] := by
  constructor
  · intro h
    unfold sendPhase at h
    split at h
    · next ht => exact tWrite_eq_none.mp ht
    · split at h <;> cases h
  · intro h
    simp [sendPhase, tWrite_eq_none.mpr h]

theorem readPhase_cases {s : State} {o : Result} (h : readPhase s = some o) :
    ∃ a rest, s.line.rx = a :: rest ∧ o = onRead a rest s := by
  unfold readPhase at h
  split at h
  · cases h
  · next a rest hr => cases h; exact ⟨a, rest, hr, rfl⟩

theorem readPhase_eq_none {s : State} : readPhase s = none ↔ s.line.rx = [] := by
  unfold readPhase
  split <;> simp_all

end Sys2Proof.Machine
end

