-- ==== Sys2Proof/Laws/Codec.lean ====
section
/-! SUPPORT. What the response parser can do: the outcomes of one answer of `T.read1`, a principle for facts that every answer keeps, and
the parser's run over bytes that are delivered. -/

namespace Sys2Proof.Machine

/-- What returning the value can do: go on with the value, or fault on a payload that is too short. -/
theorem returnValue_cases {ret : Return} {p : List Byte} {s : State} {o : Result} (h : returnValue ret p s = o) :
    (ret = .nothing ∧ o = .next s) ∨ (∃ v, o = .next { s with rval := some v }) ∨ o = .fault (.shortPayload s) := by
  subst h
  unfold returnValue
  split
  · exact .inl ⟨rfl, rfl⟩
  · exact .inr (.inl ⟨_, rfl⟩)
  · split
    · exact .inr (.inl ⟨_, rfl⟩)
    · exact .inr (.inr rfl)
  · split
    · exact .inr (.inl ⟨_, rfl⟩)
    · exact .inr (.inr rfl)

/-- Success ends the command: its frame, `Ok` and phase `Idle`, and the value where its rule has one, or the fault of a payload that
is too short. -/
theorem finish_cases {s : State} {o : Result} (h : finish s = o) :
    let t : State := { s with rframe := some (decodedFrame s), res := some .ok, ph := .idle }
    (s.ret = .nothing ∧ o = .next t) ∨ (∃ v, o = .next { t with rval := some v }) ∨ o = .fault (.shortPayload t) :=
  returnValue_cases h

/-- What follows the eighth header byte: `CrcMismatch`, `BadResponse`, success without a payload, or the payload. -/
theorem headerDone_cases {s : State} {o : Result} (h : headerDone s = o) :
    (s.cfg.verifyResponseCrc = true ∧ crc16 (rxHeaderBytes s) ≠ rxHeaderCrc s ∧
      o = .next (raise .crcMismatch (setHeaderCrcFlags s))) ∨
    ((s.cfg.verifyResponseCrc = true → crc16 (rxHeaderBytes s) = rxHeaderCrc s) ∧
      ((hdrByte s 3 ≠ constants.statusOk ∧ o = .next (raise .badResponse (setHeaderCrcFlags s))) ∨
      (hdrByte s 3 = constants.statusOk ∧ (hdrByte s 5).toNat = 0 ∧
        o = finish { setHeaderCrcFlags s with rxPLen := 0 }) ∨
      (hdrByte s 3 = constants.statusOk ∧ (hdrByte s 5).toNat ≠ 0 ∧
        o = .next { setHeaderCrcFlags s with rxPLen := 2 * (hdrByte s 5).toNat, ph := .rxPayload }))) := by
  subst h
  unfold headerDone
  by_cases hv : s.cfg.verifyResponseCrc = true ∧ crc16 (rxHeaderBytes s) ≠ rxHeaderCrc s
  · rw [if_pos hv]; exact .inl ⟨hv.1, hv.2, rfl⟩
  · rw [if_neg hv]
    refine .inr ⟨fun h1 => by_contra fun h2 => hv ⟨h1, h2⟩, ?_⟩
    by_cases h3 : hdrByte s 3 = constants.statusOk
    · rw [if_neg (not_not.mpr h3)]
      by_cases h5 : (hdrByte s 5).toNat = 0
      · rw [if_pos h5]; exact .inr (.inl ⟨h3, h5, rfl⟩)
      · rw [if_neg h5]; exact .inr (.inr ⟨h3, h5, rfl⟩)
    · rw [if_pos h3]; exact .inl ⟨h3, rfl⟩

/-- What follows the second payload CRC byte: `CrcMismatch` or success. -/
theorem payloadDone_cases {s : State} {o : Result} (h : payloadDone s = o) :
    (s.cfg.verifyResponseCrc = true ∧ crc16 (rxPayloadBytes s) ≠ rxPayloadCrc s ∧
      o = .next (raise .crcMismatch (setPayloadCrcFlags s))) ∨
    ((s.cfg.verifyResponseCrc = true → crc16 (rxPayloadBytes s) = rxPayloadCrc s) ∧ o = finish (setPayloadCrcFlags s)) := by
  subst h
  unfold payloadDone
  by_cases hv : s.cfg.verifyResponseCrc = true ∧ crc16 (rxPayloadBytes s) ≠ rxPayloadCrc s
  · rw [if_pos hv]; exact .inl ⟨hv.1, hv.2, rfl⟩
  · rw [if_neg hv]; exact .inr ⟨fun h1 => by_contra fun h2 => hv ⟨h1, h2⟩, rfl⟩

/-- A header byte is stored at the count; the eighth ends the header block. -/
theorem onHeaderByte_cases (b : Byte) (s : State) :
    (s.rxHCnt + 1 < 8 ∧
      onHeaderByte b s = .next { s with rxHdr := putAt s.rxHdr s.rxHCnt b, rxHCnt := s.rxHCnt + 1 }) ∨
    (8 ≤ s.rxHCnt + 1 ∧
      onHeaderByte b s = headerDone { s with rxHdr := putAt s.rxHdr s.rxHCnt b, rxHCnt := s.rxHCnt + 1 }) := by
  by_cases h : s.rxHCnt + 1 < 8
  · exact .inl ⟨h, by simp [onHeaderByte, h]⟩
  · exact .inr ⟨by omega, by simp [onHeaderByte, h]⟩

/-- A payload byte is stored until the payload is whole, then a payload CRC byte; the second ends the response. -/
theorem onPayloadByte_cases (b : Byte) (s : State) :
    (s.rxPCnt < s.rxPLen ∧
      onPayloadByte b s = .next { s with rxPay := putAt s.rxPay s.rxPCnt b, rxPCnt := s.rxPCnt + 1 }) ∨
    (s.rxPLen ≤ s.rxPCnt ∧ s.rxCCnt + 1 < 2 ∧
      onPayloadByte b s = .next { s with rxPCrc := putAt s.rxPCrc s.rxCCnt b, rxCCnt := s.rxCCnt + 1 }) ∨
    (s.rxPLen ≤ s.rxPCnt ∧ 2 ≤ s.rxCCnt + 1 ∧
      onPayloadByte b s = payloadDone { s with rxPCrc := putAt s.rxPCrc s.rxCCnt b, rxCCnt := s.rxCCnt + 1 }) := by
  by_cases h : s.rxPCnt < s.rxPLen
  · exact .inl ⟨h, by simp [onPayloadByte, h]⟩
  · by_cases h2 : s.rxCCnt + 1 < 2
    · exact .inr (.inl ⟨by omega, h2, by simp only [onPayloadByte, h, h2, if_true, if_false]⟩)
    · exact .inr (.inr ⟨by omega, by omega, by simp only [onPayloadByte, h, h2, if_false]⟩)

@[simp] theorem receive_nil (s : State) : receive [] s = .next s := rfl

theorem receive_cons (a : ReadAnswer) (rest : List ReadAnswer) (s : State) :
    receive (a :: rest) s =
      match onRead a rest s with
      | .next t => if t.ph = .idle then .next t else receive rest t
      | .fault f => .fault f
      | .refused r => .refused r := rfl

/-- A fact that holds where the parser stands and that every answer keeps holds wherever the parser stops, for a next state and for a
fault alike; no answer is ever refused. -/
theorem receive_induct {P : State → Prop} {Q : Result → Prop}
    (keep : ∀ a rest s, P s → s.ph ≠ .idle → s.line.rx = a :: rest →
      (∀ t, onRead a rest s = .next t → t.ph ≠ .idle → P t ∧ t.line.rx = rest) ∧
      (∀ t, onRead a rest s = .next t → t.ph = .idle → Q (.next t)) ∧
      (∀ f, onRead a rest s = .fault f → Q (.fault f)) ∧
      (∀ r, onRead a rest s = .refused r → Q (.refused r)))
    (stop : ∀ s, P s → s.ph ≠ .idle → s.line.rx = [] → Q (.next s))
    (as : List ReadAnswer) (s : State) (hs : P s) (hp : s.ph ≠ .idle) (hx : s.line.rx = as) :
    Q (receive as s) := by
  induction as generalizing s with
  | nil => exact stop s hs hp hx
  | cons a rest ih =>
    obtain ⟨h1, h2, h3, h4⟩ := keep a rest s hs hp hx
    rw [receive_cons]
    split
    · next t ht =>
      split
      · next hi => exact h2 t ht hi
      · next hi => exact ih t (h1 t ht hi).1 hi (h1 t ht hi).2
    · next f hf => exact h3 f hf
    · next r hr => exact h4 r hr

/-- Where an answer is a byte that does not end the command, the parser goes on with the rest. -/
theorem receive_byte {b : Byte} {rest : List ReadAnswer} {s t : State}
    (h : onByte b (tRead1 (.byte b) rest s) = .next t) (hp : t.ph ≠ .idle) :
    receive (.byte b :: rest) s = receive rest t := by
  simp [receive_cons, onRead, h, hp]

/-- Where an answer is the byte that ends the command, its outcome is the parser's. -/
theorem receive_last {b : Byte} {rest : List ReadAnswer} {s : State} {o : Result}
    (h : onByte b (tRead1 (.byte b) rest s) = o) (hp : ∀ t, o = .next t → t.ph = .idle) :
    receive (.byte b :: rest) s = o := by
  rw [receive_cons, onRead, h]
  cases o with
  | next t => simp [hp t rfl]
  | fault f => rfl
  | refused r => rfl

theorem receive_noData (rest : List ReadAnswer) (s : State) :
    receive (.noData :: rest) s = .next (raise .timeout (tRead1 .noData rest s)) := by
  simp [receive_cons, onRead]

theorem receive_ioError (rest : List ReadAnswer) (s : State) :
    receive (.ioError :: rest) s = .next (raise .transportError (tRead1 .ioError rest s)) := by
  simp [receive_cons, onRead]

/-- The state after header bytes that do not yet make eight have been delivered (R138). -/
def storeHeader (bs : List Byte) (rest : List ReadAnswer) (s : State) : State :=
  { s with
    rxHdr := s.rxHdr.take s.rxHCnt ++ bs ++ s.rxHdr.drop (s.rxHCnt + bs.length)
    rxHCnt := s.rxHCnt + bs.length
    trace := s.trace ++ bs.map (fun b => .rx (.byte b))
    line := { s.line with rx := rest } }

/-- The state after payload bytes, no more than are expected, have been delivered (R143). -/
def storePayload (bs : List Byte) (rest : List ReadAnswer) (s : State) : State :=
  { s with
    rxPay := s.rxPay.take s.rxPCnt ++ bs ++ s.rxPay.drop (s.rxPCnt + bs.length)
    rxPCnt := s.rxPCnt + bs.length
    trace := s.trace ++ bs.map (fun b => .rx (.byte b))
    line := { s.line with rx := rest } }

theorem storeHeader_cons (b : Byte) (bs : List Byte) (rest : List ReadAnswer) (s : State) (h : s.rxHCnt ≤ s.rxHdr.length) :
    storeHeader bs rest { tRead1 (.byte b) (bs.map .byte ++ rest) s with
      rxHdr := putAt s.rxHdr s.rxHCnt b, rxHCnt := s.rxHCnt + 1 } = storeHeader (b :: bs) rest s := by
  have hd : (putAt s.rxHdr s.rxHCnt b).drop (s.rxHCnt + 1 + bs.length) = s.rxHdr.drop (s.rxHCnt + (bs.length + 1)) := by
    have hl : (s.rxHdr.take s.rxHCnt ++ [b]).length = s.rxHCnt + 1 := by simp [h]
    have hs : putAt s.rxHdr s.rxHCnt b = (s.rxHdr.take s.rxHCnt ++ [b]) ++ s.rxHdr.drop (s.rxHCnt + 1) := by simp [putAt]
    rw [hs, ← hl, ← List.drop_drop, List.drop_left, List.drop_drop, hl]
    congr 1
    omega
  simp only [storeHeader, take_putAt _ _ _ h, hd, tRead1_trace, tRead1_line, List.length_cons, List.map_cons,
    List.append_assoc, List.cons_append, List.nil_append]
  have e : s.rxHCnt + 1 + bs.length = s.rxHCnt + (bs.length + 1) := by omega
  simp only [e]
  rfl

theorem storePayload_cons (b : Byte) (bs : List Byte) (rest : List ReadAnswer) (s : State) (h : s.rxPCnt ≤ s.rxPay.length) :
    storePayload bs rest { tRead1 (.byte b) (bs.map .byte ++ rest) s with
      rxPay := putAt s.rxPay s.rxPCnt b, rxPCnt := s.rxPCnt + 1 } = storePayload (b :: bs) rest s := by
  have hd : (putAt s.rxPay s.rxPCnt b).drop (s.rxPCnt + 1 + bs.length) = s.rxPay.drop (s.rxPCnt + (bs.length + 1)) := by
    have hl : (s.rxPay.take s.rxPCnt ++ [b]).length = s.rxPCnt + 1 := by simp [h]
    have hs : putAt s.rxPay s.rxPCnt b = (s.rxPay.take s.rxPCnt ++ [b]) ++ s.rxPay.drop (s.rxPCnt + 1) := by simp [putAt]
    rw [hs, ← hl, ← List.drop_drop, List.drop_left, List.drop_drop, hl]
    congr 1
    omega
  simp only [storePayload, take_putAt _ _ _ h, hd, tRead1_trace, tRead1_line, List.length_cons, List.map_cons,
    List.append_assoc, List.cons_append, List.nil_append]
  have e : s.rxPCnt + 1 + bs.length = s.rxPCnt + (bs.length + 1) := by omega
  simp only [e]
  rfl

/-- The parser over header bytes that do not yet make eight. -/
theorem receive_headerBytes (bs : List Byte) (rest : List ReadAnswer) (s : State) (hp : s.ph = .rxHeader)
    (hc : s.rxHCnt + bs.length < 8) (hl : s.rxHCnt ≤ s.rxHdr.length) (hx : s.line.rx = bs.map .byte ++ rest) :
    receive (bs.map .byte ++ rest) s = receive rest (storeHeader bs rest s) := by
  induction bs generalizing s with
  | nil =>
    have : storeHeader [] rest s = s := by
      simp only [List.map_nil, List.nil_append] at hx
      subst hx
      simp [storeHeader]
    simp [this]
  | cons b bs ih =>
    simp only [List.length_cons] at hc
    simp only [List.map_cons, List.cons_append] at hx ⊢
    have ho : onByte b (tRead1 (.byte b) (bs.map .byte ++ rest) s) =
        .next { tRead1 (.byte b) (bs.map .byte ++ rest) s with
          rxHdr := putAt s.rxHdr s.rxHCnt b, rxHCnt := s.rxHCnt + 1 } := by
      rcases onHeaderByte_cases b (tRead1 (.byte b) (bs.map .byte ++ rest) s) with ⟨_, h⟩ | ⟨h, _⟩
      · simp only [onByte, tRead1_ph, hp, h, tRead1_rxHdr, tRead1_rxHCnt]
      · simp only [tRead1_rxHCnt] at h; omega
    rw [receive_byte ho (by simp [hp]), ih _ (by simp [hp]) (by simp; omega) (by simp [length_putAt _ _ _ hl]) rfl,
      storeHeader_cons b bs rest s hl]

/-- The parser over payload bytes, no more than are expected. -/
theorem receive_payloadBytes (bs : List Byte) (rest : List ReadAnswer) (s : State) (hp : s.ph = .rxPayload)
    (hc : s.rxPCnt + bs.length ≤ s.rxPLen) (hl : s.rxPCnt ≤ s.rxPay.length) (hx : s.line.rx = bs.map .byte ++ rest) :
    receive (bs.map .byte ++ rest) s = receive rest (storePayload bs rest s) := by
  induction bs generalizing s with
  | nil =>
    have : storePayload [] rest s = s := by
      simp only [List.map_nil, List.nil_append] at hx
      subst hx
      simp [storePayload]
    simp [this]
  | cons b bs ih =>
    simp only [List.length_cons] at hc
    simp only [List.map_cons, List.cons_append] at hx ⊢
    have ho : onByte b (tRead1 (.byte b) (bs.map .byte ++ rest) s) =
        .next { tRead1 (.byte b) (bs.map .byte ++ rest) s with
          rxPay := putAt s.rxPay s.rxPCnt b, rxPCnt := s.rxPCnt + 1 } := by
      rcases onPayloadByte_cases b (tRead1 (.byte b) (bs.map .byte ++ rest) s) with ⟨_, h⟩ | ⟨h, _⟩ | ⟨h, _⟩
      · simp only [onByte, tRead1_ph, hp, h, tRead1_rxPay, tRead1_rxPCnt]
      · simp only [tRead1_rxPCnt, tRead1_rxPLen] at h; omega
      · simp only [tRead1_rxPCnt, tRead1_rxPLen] at h; omega
    rw [receive_byte ho (by simp [hp]), ih _ (by simp [hp]) (by simp; omega) (by simp [length_putAt _ _ _ hl]) rfl,
      storePayload_cons b bs rest s hl]

/-- The state after the first payload CRC byte (R144). -/
def storeCrcHigh (c0 : Byte) (rest : List ReadAnswer) (s : State) : State :=
  { s with
    rxPCrc := c0 :: s.rxPCrc.drop 1
    rxCCnt := 1
    trace := s.trace ++ [.rx (.byte c0)]
    line := { s.line with rx := rest } }

/-- The state after both payload CRC bytes (R144). -/
def storeCrc (c0 c1 : Byte) (rest : List ReadAnswer) (s : State) : State :=
  { s with
    rxPCrc := c0 :: c1 :: s.rxPCrc.drop 2
    rxCCnt := 2
    trace := s.trace ++ [.rx (.byte c0), .rx (.byte c1)]
    line := { s.line with rx := rest } }

theorem onByte_crcHigh (c0 : Byte) (rest : List ReadAnswer) (s : State) (hp : s.ph = .rxPayload)
    (hc : s.rxPLen ≤ s.rxPCnt) (h0 : s.rxCCnt = 0) :
    onByte c0 (tRead1 (.byte c0) rest s) = .next (storeCrcHigh c0 rest s) := by
  have h : ¬ s.rxPCnt < s.rxPLen := by omega
  simp [onByte, hp, onPayloadByte, h, h0, putAt, storeCrcHigh, tRead1, record]

theorem onByte_crcLow (c0 c1 : Byte) (more rest : List ReadAnswer) (s : State) (hp : s.ph = .rxPayload)
    (hc : s.rxPLen ≤ s.rxPCnt) :
    onByte c1 (tRead1 (.byte c1) rest (storeCrcHigh c0 more s)) = payloadDone (storeCrc c0 c1 rest s) := by
  have h : ¬ s.rxPCnt < s.rxPLen := by omega
  simp [onByte, hp, onPayloadByte, h, putAt, storeCrcHigh, storeCrc, tRead1, record]

/-- The two payload CRC bytes, once the payload is whole, end the response. -/
theorem receive_payloadCrc (c0 c1 : Byte) (rest : List ReadAnswer) (s : State) (hp : s.ph = .rxPayload)
    (hc : s.rxPLen ≤ s.rxPCnt) (h0 : s.rxCCnt = 0)
    (hi : ∀ t, payloadDone (storeCrc c0 c1 rest s) = .next t → t.ph = .idle) :
    receive (.byte c0 :: .byte c1 :: rest) s = payloadDone (storeCrc c0 c1 rest s) := by
  rw [receive_byte (onByte_crcHigh c0 _ s hp hc h0) (by simp [storeCrcHigh, hp])]
  exact receive_last (onByte_crcLow c0 c1 _ rest s hp hc) hi

theorem returnValue_idle {ret : Return} {p : List Byte} {s t : State} (hs : s.ph = .idle)
    (h : returnValue ret p s = .next t) : t.ph = .idle := by
  rcases returnValue_cases h with ⟨_, h⟩ | ⟨v, h⟩ | h <;> cases h <;> exact hs

theorem finish_idle {s t : State} (h : finish s = .next t) : t.ph = .idle :=
  returnValue_idle rfl h

theorem payloadDone_idle {s t : State} (h : payloadDone s = .next t) : t.ph = .idle := by
  rcases payloadDone_cases h with ⟨_, _, h⟩ | ⟨_, h⟩
  · cases h; rfl
  · exact finish_idle h.symm

/-- The eighth header byte: what follows it, and then, when a payload is expected, the payload. -/
theorem receive_eighth (b : Byte) (rest : List ReadAnswer) (s : State) (hp : s.ph = .rxHeader) (hc : s.rxHCnt = 7) :
    receive (.byte b :: rest) s =
      match headerDone { tRead1 (.byte b) rest s with rxHdr := putAt s.rxHdr 7 b, rxHCnt := 8 } with
      | .next t => if t.ph = .idle then .next t else receive rest t
      | .fault f => .fault f
      | .refused r => .refused r := by
  simp [receive_cons, onRead, onByte, hp, onHeaderByte, hc]

end Sys2Proof.Machine
end

