-- ==== Sys2Proof/Laws/PerInstr.lean ====
section
/-! SUPPORT. Facts about every instruction as syntax, one lemma for each constructor: the header of an encoded instruction belongs to its
row of the opcode table. -/

namespace Sys2Proof

open Machine

/-- A mask over a header acts byte by byte (R86). -/
theorem headerWord_and (b0 b1 b2 b3 b4 b5 m0 m1 m2 m3 m4 m5 : Byte) :
    headerWord b0 b1 b2 b3 b4 b5 &&& headerWord m0 m1 m2 m3 m4 m5 =
      headerWord (b0 &&& m0) (b1 &&& m1) (b2 &&& m2) (b3 &&& m3) (b4 &&& m4) (b5 &&& m5) := by
  have h : (b0 ++ b1 ++ b2 ++ b3 ++ b4 ++ b5) &&& (m0 ++ m1 ++ m2 ++ m3 ++ m4 ++ m5) =
      (b0 &&& m0) ++ (b1 &&& m1) ++ (b2 &&& m2) ++ (b3 &&& m3) ++ (b4 &&& m4) ++ (b5 &&& m5) := by
    rw [BitVec.and_append, BitVec.and_append, BitVec.and_append, BitVec.and_append, BitVec.and_append]
  exact h

/-- A header belongs to a row when each of its bytes, masked, is the row's byte (R86). -/
theorem matchesHeader_of_bytes (row : Row) (b0 b1 b2 b3 b4 b5 m0 m1 m2 m3 m4 m5 v0 v1 v2 v3 v4 v5 : Byte)
    (hm : row.maskBits = headerWord m0 m1 m2 m3 m4 m5) (hv : row.matchBits = headerWord v0 v1 v2 v3 v4 v5)
    (h0 : b0 &&& m0 = v0) (h1 : b1 &&& m1 = v1) (h2 : b2 &&& m2 = v2) (h3 : b3 &&& m3 = v3) (h4 : b4 &&& m4 = v4)
    (h5 : b5 &&& m5 = v5) : row.matchesHeader (headerWord b0 b1 b2 b3 b4 b5) = true := by
  simp only [Row.matchesHeader, hm, hv, headerWord_and, h0, h1, h2, h3, h4, h5, beq_self_eq_true]

/-- The control byte under the tables' mask: the direction alone, whatever the sequence nibble (R86, R87). -/
theorem ctrlByte_masked (d : Dir) (seq : Nibble) : ctrlByte d seq &&& 0xC3 = dirCode d := by
  revert seq
  cases d <;> decide

/-- The header of a request frame (R81, R86). -/
theorem frameHeader_request (seq : Nibble) (r : Request) :
    frameHeader (encodeRequest seq r) =
      some (headerWord constants.sof constants.devAddr (ctrlByte r.dir seq) r.idx r.off r.wc) := rfl

/-- The header of a response (R83, R86). -/
theorem frameHeader_response (h : RspHeader) (tail : List Byte) :
    frameHeader (responseBlock h ++ tail) = some (headerWord h.sof h.addr h.ctrl h.status h.reserved h.wc) := rfl

/-- Every byte under the mask of a free field, and under that of a fixed one. -/
theorem byte_masks (b : Byte) : b &&& 0x00 = 0x00 ∧ b &&& 0xFF = b :=
  ⟨BitVec.and_zero, BitVec.and_allOnes⟩

namespace Laws.HeaderOfRow

/-- The header of the frame of a well-formed instruction belongs to the instruction's row, under the register map the table is
written for (R86, R91, R98). -/
def Statement (i : Instr) : Prop :=
  ∀ (cfg : Config) (seq : Nibble), cfg.regMap = RegMap.source → i.wf = true →
    (frameHeader (encode cfg seq i)).any i.row.matchesHeader = true

/-- The bytes of a request against a row that fixes start, address and direction. -/
theorem of_request (row : Row) (seq : Nibble) (r : Request) (d : Dir) (hd : r.dir = d) (m3 m4 m5 v3 v4 v5 : Byte)
    (hm : row.maskBits = headerWord 0xFF 0xFF 0xC3 m3 m4 m5)
    (hv : row.matchBits = headerWord constants.sof constants.devAddr (dirCode d) v3 v4 v5)
    (h3 : r.idx &&& m3 = v3) (h4 : r.off &&& m4 = v4) (h5 : r.wc &&& m5 = v5) :
    (frameHeader (encodeRequest seq r)).any row.matchesHeader = true := by
  rw [frameHeader_request]
  exact matchesHeader_of_bytes row _ _ _ _ _ _ _ _ _ _ _ _ _ _ _ _ _ _ hm hv (byte_masks _).2 (byte_masks _).2
    (hd ▸ ctrlByte_masked _ _) h3 h4 h5

theorem readReg (idx off wc : Byte) : Statement (.readReg idx off wc) := fun _ seq _ _ =>
  of_request .readReg seq ⟨.read, idx, off, wc, none⟩ .read rfl 0 0 0 0 0 0 (by decide) (by decide) (byte_masks _).1 (byte_masks _).1
    (byte_masks _).1

theorem writeReg (idx off wc : Byte) (words : List Word) : Statement (.writeReg idx off wc words) := fun cfg seq _ _ =>
  of_request .writeReg seq ⟨.write, idx, off, wc, if wc = 0 then none else some (wordsToBytes cfg.payloadOrder words)⟩
    .write rfl 0 0 0 0 0 0 (by decide) (by decide) (byte_masks _).1 (byte_masks _).1 (byte_masks _).1

/-- A one-word or two-word write at an address of the source's map. -/
theorem of_write (row : Row) (seq : Nibble) (a : Address) (wc : Byte) (p : List Byte)
    (hm : row.maskBits = headerWord 0xFF 0xFF 0xC3 0xFF 0xFF 0xFF)
    (hv : row.matchBits = headerWord constants.sof constants.devAddr (dirCode .write) a.index a.offset wc) :
    (frameHeader (encodeRequest seq ⟨.write, a.index, a.offset, wc, some p⟩)).any row.matchesHeader = true :=
  of_request row seq _ .write rfl _ _ _ _ _ _ hm hv (byte_masks _).2 (byte_masks _).2 (byte_masks _).2

theorem gainWriteAccess : Statement .gainWriteAccess := fun cfg seq hc _ => by
  show (frameHeader (encodeRequest seq (wordRequest _ cfg.regMap.writeAccess _))).any _ = true
  rw [hc]; exact of_write _ _ _ _ _ rfl rfl

theorem enableBridge : Statement .enableBridge := fun cfg seq hc _ => by
  show (frameHeader (encodeRequest seq (wordRequest _ cfg.regMap.bridge _))).any _ = true
  rw [hc]; exact of_write _ _ _ _ _ rfl rfl

theorem disableBridge : Statement .disableBridge := fun cfg seq hc _ => by
  show (frameHeader (encodeRequest seq (wordRequest _ cfg.regMap.bridge _))).any _ = true
  rw [hc]; exact of_write _ _ _ _ _ rfl rfl

theorem home : Statement .home := fun cfg seq hc _ => by
  show (frameHeader (encodeRequest seq (wordRequest _ cfg.regMap.home _))).any _ = true
  rw [hc]; exact of_write _ _ _ _ _ rfl rfl

theorem stop : Statement .stop := fun cfg seq hc _ => by
  show (frameHeader (encodeRequest seq (wordRequest _ cfg.regMap.stop _))).any _ = true
  rw [hc]; exact of_write _ _ _ _ _ rfl rfl

theorem resetEvents : Statement .resetEvents := fun cfg seq hc _ => by
  show (frameHeader (encodeRequest seq (wordRequest _ cfg.regMap.resetEvents _))).any _ = true
  rw [hc]; exact of_write _ _ _ _ _ rfl rfl

theorem sync : Statement .sync := fun cfg seq hc _ => by
  show (frameHeader (encodeRequest seq (wordRequest _ cfg.regMap.sync _))).any _ = true
  rw [hc]; exact of_write _ _ _ _ _ rfl rfl

theorem setMeasuredPosition (ticks : Ticks) : Statement (.setMeasuredPosition ticks) := fun cfg seq hc _ => by
  show (frameHeader (encodeRequest seq (ticksRequest _ cfg.regMap.setMeasuredPosition _))).any _ = true
  rw [hc]; exact of_write _ _ _ _ _ rfl rfl

theorem gotoTicks (ticks : Ticks) : Statement (.gotoTicks ticks) := fun cfg seq hc _ => by
  show (frameHeader (encodeRequest seq (ticksRequest _ cfg.regMap.goto _))).any _ = true
  rw [hc]; exact of_write _ _ _ _ _ rfl rfl

/-- A read at an address of the source's map. -/
theorem of_read (row : Row) (seq : Nibble) (a : Address) (wc : Byte)
    (hm : row.maskBits = headerWord 0xFF 0xFF 0xC3 0xFF 0xFF 0xFF)
    (hv : row.matchBits = headerWord constants.sof constants.devAddr (dirCode .read) a.index a.offset wc) :
    (frameHeader (encodeRequest seq (readRequest a wc))).any row.matchesHeader = true :=
  of_request row seq _ .read rfl _ _ _ _ _ _ hm hv (byte_masks _).2 (byte_masks _).2 (byte_masks _).2

theorem getPositionTicks : Statement .getPositionTicks := fun cfg seq hc _ => by
  show (frameHeader (encodeRequest seq (readRequest cfg.regMap.position _))).any _ = true
  rw [hc]; exact of_read _ _ _ _ rfl rfl

theorem getStatus (sel : Byte) : Statement (.getStatus sel) := fun cfg seq hc _ => by
  show (frameHeader (encodeRequest seq ⟨.read, cfg.regMap.statusIndex, sel, 1, none⟩)).any _ = true
  rw [hc]
  exact of_request .getStatus seq _ .read rfl 0xFF 0 0xFF 0x02 0 1 (by decide) (by decide)
    (byte_masks _).2 (byte_masks _).1 (byte_masks _).2

theorem getFirmwareInfo : Statement .getFirmwareInfo := fun cfg seq hc _ => by
  show (frameHeader (encodeRequest seq (readRequest cfg.regMap.firmware cfg.regMap.firmwareWords))).any _ = true
  rw [hc]; exact of_read _ _ _ _ rfl rfl

theorem getProductInfo : Statement .getProductInfo := fun cfg seq hc _ => by
  show (frameHeader (encodeRequest seq (readRequest cfg.regMap.productInfo cfg.regMap.productInfoWords))).any _ = true
  rw [hc]; exact of_read _ _ _ _ rfl rfl

theorem rspOk (hdr : RspHeader) (payload : List Byte) (pcrc : Option Word) : Statement (.rspOk hdr payload pcrc) :=
  fun _ _ _ hw => by
  have hs : hdr.status = 1 := by
    simp only [Instr.wf, statusIsOk, Bool.and_eq_true, beq_iff_eq] at hw
    exact hw.1
  show (frameHeader (responseBytes hdr payload pcrc)).any _ = true
  rw [responseBytes, List.append_assoc, frameHeader_response, hs]
  exact matchesHeader_of_bytes .rspOk _ _ _ _ _ _ 0 0 0 0xFF 0 0 0 0 0 1 0 0 rfl rfl (byte_masks _).1
    (byte_masks _).1 (byte_masks _).1 (by decide) (byte_masks _).1 (byte_masks _).1

theorem rspErr (hdr : RspHeader) : Statement (.rspErr hdr) := fun _ _ _ _ => by
  show (frameHeader (responseBlock hdr)).any _ = true
  rw [← List.append_nil (responseBlock hdr), frameHeader_response]
  exact matchesHeader_of_bytes .rspErr _ _ _ _ _ _ 0 0 0 0 0 0 0 0 0 0 0 0 rfl rfl (byte_masks _).1
    (byte_masks _).1 (byte_masks _).1 (byte_masks _).1 (byte_masks _).1 (byte_masks _).1

end Laws.HeaderOfRow

end Sys2Proof
end

