-- ==== Sys2Proof/Laws/Receive.lean ====
section
/-! SUPPORT. The parser's run over a header block that arrives whole, and over a payload block that arrives whole or cut short. -/

namespace Sys2Proof.Machine

/-! Words and their bytes (R12, R54). -/

@[simp] theorem wordOf_hi_lo (v : Word) : wordOf (hiByte v) (loByte v) = v := by
  apply BitVec.eq_of_toNat_eq
  have hv := v.isLt
  have ha : (wordOf (hiByte v) (loByte v)).toNat = (hiByte v).toNat <<< 8 ||| (loByte v).toNat := BitVec.toNat_append ..
  rw [ha, ← Nat.shiftLeft_add_eq_or_of_lt (loByte v).isLt, Nat.shiftLeft_eq]
  simp only [hiByte, loByte, BitVec.extractLsb'_toNat, Nat.shiftRight_eq_div_pow]
  omega

@[simp] theorem length_be16 (v : Word) : (be16 v).length = 2 := rfl

@[simp] theorem length_responseHeader (h : RspHeader) : (responseHeader h).length = 6 := rfl

@[simp] theorem length_responseBlock (h : RspHeader) : (responseBlock h).length = 8 := rfl

theorem delivers_append (xs ys : List Byte) : delivers (xs ++ ys) = delivers xs ++ delivers ys := by
  simp [delivers]

theorem delivers_nil : delivers [] = [] := rfl

theorem delivers_cons (b : Byte) (bs : List Byte) : delivers (b :: bs) = .byte b :: delivers bs := rfl

/-- The state when a header block has been stored, before anything is made of it (R138). -/
def headerReceived (h : RspHeader) (rest : List ReadAnswer) (s : State) : State :=
  { s with
    rxHdr := responseBlock h ++ s.rxHdr.drop 8
    rxHCnt := 8
    trace := s.trace ++ (delivers (responseBlock h)).map .rx
    line := { s.line with rx := rest } }

theorem headerReceived_byte (h : RspHeader) (rest : List ReadAnswer) (s : State) :
    hdrByte (headerReceived h rest s) 0 = h.sof ∧ hdrByte (headerReceived h rest s) 1 = h.addr ∧
    hdrByte (headerReceived h rest s) 2 = h.ctrl ∧ hdrByte (headerReceived h rest s) 3 = h.status ∧
    hdrByte (headerReceived h rest s) 4 = h.reserved ∧ hdrByte (headerReceived h rest s) 5 = h.wc :=
  ⟨rfl, rfl, rfl, rfl, rfl, rfl⟩

@[simp] theorem headerReceived_bytes (h : RspHeader) (rest : List ReadAnswer) (s : State) :
    rxHeaderBytes (headerReceived h rest s) = responseHeader h := rfl

@[simp] theorem headerReceived_crc (h : RspHeader) (rest : List ReadAnswer) (s : State) :
    rxHeaderCrc (headerReceived h rest s) = h.hcrc :=
  wordOf_hi_lo h.hcrc

/-- A whole header block is stored, and the parser goes on from `headerDone` (R138, R140 to R142). -/
theorem receive_header (h : RspHeader) (rest : List ReadAnswer) (s : State) (hp : s.ph = .rxHeader) (hc : s.rxHCnt = 0)
    (hx : s.line.rx = delivers (responseBlock h) ++ rest) :
    receive (delivers (responseBlock h) ++ rest) s =
      match headerDone (headerReceived h rest s) with
      | .next t => if t.ph = .idle then .next t else receive rest t
      | .fault f => .fault f
      | .refused r => .refused r := by
  have h7 : delivers (responseBlock h) ++ rest =
      [h.sof, h.addr, h.ctrl, h.status, h.reserved, h.wc, hiByte h.hcrc].map .byte ++ (.byte (loByte h.hcrc) :: rest) := rfl
  rw [h7] at hx ⊢
  rw [receive_headerBytes _ _ s hp (by simp [hc]) (by simp [hc]) hx, receive_eighth _ _ _ (by simp [storeHeader, hp])
    (by simp [storeHeader, hc])]
  have e : ({ tRead1 (.byte (loByte h.hcrc)) rest (storeHeader
      [h.sof, h.addr, h.ctrl, h.status, h.reserved, h.wc, hiByte h.hcrc] (.byte (loByte h.hcrc) :: rest) s) with
      rxHdr := putAt (storeHeader [h.sof, h.addr, h.ctrl, h.status, h.reserved, h.wc, hiByte h.hcrc]
        (.byte (loByte h.hcrc) :: rest) s).rxHdr 7 (loByte h.hcrc), rxHCnt := 8 } : State) = headerReceived h rest s := by
    simp [storeHeader, tRead1, record, headerReceived, hc, putAt, responseBlock, responseHeader, be16, delivers]
  rw [e] <;> rfl

/-- The state when the header block of a good response has been taken and a payload is expected (R142). -/
def payloadExpected (h : RspHeader) (rest : List ReadAnswer) (s : State) : State :=
  { setHeaderCrcFlags (headerReceived h rest s) with rxPLen := 2 * h.wc.toNat, ph := .rxPayload }

/-- What follows a header block that has been stored (R141, R142), by the fields of the header. -/
theorem headerDone_mismatch {h : RspHeader} {rest : List ReadAnswer} {s : State} (hv : s.cfg.verifyResponseCrc = true)
    (hc : crc16 (responseHeader h) ≠ h.hcrc) :
    headerDone (headerReceived h rest s) = .next (raise .crcMismatch (setHeaderCrcFlags (headerReceived h rest s))) := by
  have hv' : (headerReceived h rest s).cfg.verifyResponseCrc = true := hv
  simp [headerDone, hv', hc]

theorem headerDone_badStatus {h : RspHeader} {rest : List ReadAnswer} {s : State}
    (hc : s.cfg.verifyResponseCrc = true → crc16 (responseHeader h) = h.hcrc) (hs : h.status ≠ constants.statusOk) :
    headerDone (headerReceived h rest s) = .next (raise .badResponse (setHeaderCrcFlags (headerReceived h rest s))) := by
  have hv : ¬ ((headerReceived h rest s).cfg.verifyResponseCrc = true ∧ crc16 (responseHeader h) ≠ h.hcrc) :=
    fun hh => hh.2 (hc hh.1)
  simp only [headerDone, headerReceived_bytes, headerReceived_crc, (headerReceived_byte h rest s).2.2.2.1, if_neg hv, if_pos hs]

theorem headerDone_noPayload {h : RspHeader} {rest : List ReadAnswer} {s : State}
    (hc : s.cfg.verifyResponseCrc = true → crc16 (responseHeader h) = h.hcrc) (hs : h.status = constants.statusOk)
    (hw : h.wc = 0) :
    headerDone (headerReceived h rest s) = finish { setHeaderCrcFlags (headerReceived h rest s) with rxPLen := 0 } := by
  have hv : ¬ ((headerReceived h rest s).cfg.verifyResponseCrc = true ∧ crc16 (responseHeader h) ≠ h.hcrc) :=
    fun hh => hh.2 (hc hh.1)
  have h5 : (hdrByte (headerReceived h rest s) 5).toNat = 0 := by
    rw [(headerReceived_byte h rest s).2.2.2.2.2, hw]; rfl
  simp only [headerDone, headerReceived_bytes, headerReceived_crc, (headerReceived_byte h rest s).2.2.2.1, if_neg hv,
    not_not.mpr hs, if_false, if_pos h5]

theorem headerDone_payload {h : RspHeader} {rest : List ReadAnswer} {s : State}
    (hc : s.cfg.verifyResponseCrc = true → crc16 (responseHeader h) = h.hcrc) (hs : h.status = constants.statusOk)
    (hw : h.wc ≠ 0) :
    headerDone (headerReceived h rest s) = .next (payloadExpected h rest s) := by
  have hv : ¬ ((headerReceived h rest s).cfg.verifyResponseCrc = true ∧ crc16 (responseHeader h) ≠ h.hcrc) :=
    fun hh => hh.2 (hc hh.1)
  have h5 : ¬ (hdrByte (headerReceived h rest s) 5).toNat = 0 := by
    rw [(headerReceived_byte h rest s).2.2.2.2.2]
    exact fun h0 => hw (BitVec.eq_of_toNat_eq h0)
  simp only [headerDone, headerReceived_bytes, headerReceived_crc, (headerReceived_byte h rest s).2.2.2.1, if_neg hv,
    not_not.mpr hs, if_false, if_neg h5]
  rfl

/-- After a good header block with a word count that is not zero, the parser goes on with the payload (R142, R143). -/
theorem receive_expectPayload {h : RspHeader} {rest : List ReadAnswer} {s : State} (hp : s.ph = .rxHeader)
    (h0 : s.rxHCnt = 0) (hx : s.line.rx = delivers (responseBlock h) ++ rest)
    (hc : s.cfg.verifyResponseCrc = true → crc16 (responseHeader h) = h.hcrc) (hs : h.status = constants.statusOk)
    (hw : h.wc ≠ 0) :
    receive (delivers (responseBlock h) ++ rest) s = receive rest (payloadExpected h rest s) := by
  rw [receive_header h rest s hp h0 hx, headerDone_payload hc hs hw]
  simp [payloadExpected]

/-- After a header block that ends the command, its outcome is the parser's (R141, R142, R146). -/
theorem receive_headerEnds {h : RspHeader} {rest : List ReadAnswer} {s : State} {o : Result} (hp : s.ph = .rxHeader)
    (h0 : s.rxHCnt = 0) (hx : s.line.rx = delivers (responseBlock h) ++ rest)
    (ho : headerDone (headerReceived h rest s) = o) (hi : ∀ t, o = .next t → t.ph = .idle) :
    receive (delivers (responseBlock h) ++ rest) s = o := by
  rw [receive_header h rest s hp h0 hx, ho]
  cases o with
  | next t => simp [hi t rfl]
  | fault f => rfl
  | refused r => rfl

/-- A payload block that arrives whole is stored, and the parser ends in `payloadDone` (R143, R144). -/
theorem receive_payload (p : List Byte) (c : Word) (rest : List ReadAnswer) (s : State) (hp : s.ph = .rxPayload)
    (h0 : s.rxPCnt = 0) (hl : p.length = s.rxPLen) (hc : s.rxCCnt = 0)
    (hx : s.line.rx = delivers (p ++ be16 c) ++ rest) :
    receive (delivers (p ++ be16 c) ++ rest) s =
      payloadDone (storeCrc (hiByte c) (loByte c) rest
        (storePayload p (.byte (hiByte c) :: .byte (loByte c) :: rest) s)) := by
  have e : delivers (p ++ be16 c) ++ rest = p.map .byte ++ (.byte (hiByte c) :: .byte (loByte c) :: rest) := by
    simp [delivers, be16]
  rw [e] at hx ⊢
  rw [receive_payloadBytes p _ s hp (by omega) (by omega) hx]
  exact receive_payloadCrc _ _ _ _ (by simp [storePayload, hp]) (by simp [storePayload, h0, hl])
    (by simp [storePayload, hc]) (fun t ht => payloadDone_idle ht)

end Sys2Proof.Machine
end

