-- ==== Sys2Proof/Laws/Results.lean ====
section
/-! SUPPORT. What the caller's reads can give: refused in flight, and in an idle block the value held or the fault of an absent
element. -/

namespace Sys2Proof.Machine

@[simp] theorem readElement_some {α : Type} (e : Element) (a : α) : readElement e (some a) = .value a := rfl
@[simp] theorem readElement_none {α : Type} (e : Element) : readElement e (none : Option α) = .fault e := rfl

theorem whileIdle_idle {α : Type} {s : State} (h : s.ph = .idle) (r : Read α) : whileIdle s r = r := by
  simp [whileIdle, h]

theorem whileIdle_inFlight {α : Type} {s : State} (h : s.ph ≠ .idle) (r : Read α) :
    whileIdle s r = .refused .readInFlight := by
  simp [whileIdle, h]

/-- A result register in an idle block is read as `readElement` says. -/
theorem readResult_idle {α : Type} {s : State} (h : s.ph = .idle) (e : Element) (v : Option α) :
    readResult e v s = readElement e v :=
  whileIdle_idle h _

theorem readResult_inFlight {α : Type} {s : State} (h : s.ph ≠ .idle) (e : Element) (v : Option α) :
    readResult e v s = .refused .readInFlight :=
  whileIdle_inFlight h _

/-- A diagnostic register in an idle block: its value where its valid bit is 1, the fault where it is 0. -/
theorem readDiagnostic_idle {α : Type} {s : State} (h : s.ph = .idle) (e : Element) (valid : Bool) (v : Option α) :
    readDiagnostic e valid v s = if valid then readElement e v else .fault e :=
  whileIdle_idle h _

theorem readDiagnostic_inFlight {α : Type} {s : State} (h : s.ph ≠ .idle) (e : Element) (valid : Bool) (v : Option α) :
    readDiagnostic e valid v s = .refused .readInFlight :=
  whileIdle_inFlight h _

end Sys2Proof.Machine
end

