-- ==== Sys2Proof/Laws/Transaction.lean ====
section
/-! SUPPORT. What a transaction can do: the small step, the transaction from phase to phase, the instructions as transactions, and one
step of the machine. -/

namespace Sys2Proof.Machine

/-! The small step (R27, U17). -/

theorem tick_idle {s : State} (h : s.ph = .idle) : tick s = .next s := by
  simp [tick, h]

theorem tick_purging {s : State} (h : s.ph = .purging) : tick s = (purgePhase s).getD (.fault .transportStuck) := by
  simp [tick, h]

theorem tick_sending {s : State} (h : s.ph = .sending) : tick s = (sendPhase s).getD (.fault .transportStuck) := by
  simp [tick, h]

theorem tick_flushing {s : State} (h : s.ph = .flushing) : tick s = .next (flushPhase s) := by
  simp [tick, h]

theorem tick_receiving {s : State} (h : s.ph = .rxHeader ∨ s.ph = .rxPayload) :
    tick s = (readPhase s).getD (.fault .transportStuck) := by
  rcases h with h | h <;> simp [tick, h]

/-! The transaction (R170). -/

theorem transact_unanswered {s : State} (h : s.line.purges = []) : transact s = .next s := by
  simp [transact, purgePhase_eq_none.mpr h]

theorem transact_purgeFailed {s : State} {ps : List PurgeAnswer} (h : s.line.purges = .ioError :: ps) :
    transact s =
      .next (raise .transportError (record (.purge .ioError) { s with line := { s.line with purges := ps } })) := by
  simp [transact, purgePhase, tPurge, h]

/-- After a successful purge the request stands in `TXBUF` and the block is in phase `Sending`. -/
theorem transact_purged {s : State} {ps : List PurgeAnswer} {op : Latches} (h : s.line.purges = .ok :: ps)
    (ho : s.op = some op) :
    transact s = sendAndReceive { loadRequest op.seq op.request (record (.purge .ok)
      { s with line := { s.line with purges := ps, rx := s.line.later.headD [], later := s.line.later.tail } })
        with ph := .sending } := by
  simp [transact, purgePhase, tPurge, h, ho]

theorem sendAndReceive_unanswered {s : State} (h : s.line.writes = []) : sendAndReceive s = .next s := by
  simp [sendAndReceive, sendPhase_eq_none.mpr h]

theorem sendAndReceive_failed {s : State} {a : WriteAnswer} {ws : List WriteAnswer} (h : s.line.writes = a :: ws)
    (ha : a ≠ .written (txFrame s).length) :
    sendAndReceive s =
      .next (raise .transportError (record (.tx (txFrame s) a) { s with line := { s.line with writes := ws } })) := by
  simp [sendAndReceive, sendPhase, tWrite, h, ha]

/-- After a frame taken whole comes the flush, and the parser starts. -/
theorem sendAndReceive_sent {s : State} {ws : List WriteAnswer} (h : s.line.writes = .written (txFrame s).length :: ws) :
    sendAndReceive s =
      receive s.line.rx (flushPhase { record (.tx (txFrame s) (.written (txFrame s).length))
        { s with line := { s.line with writes := ws } } with ph := .flushing }) := by
  simp [sendAndReceive, sendPhase, tWrite, h]

/-- The state of a transaction as the parser starts: everything but the response. -/
def requestSent (r : Request) (ret : Return) (s : State) : State :=
  { s with
    hcrcValid := false
    pcrcValid := false
    res := none
    rval := none
    rframe := none
    op := some (latch s.seq r)
    ret := ret
    seq := s.seq + 1
    txBuf := putFront s.txBuf (encodeRequest s.seq r)
    txLen := (encodeRequest s.seq r).length
    crcAcc := some (requestCrcAcc s.seq r)
    ph := .rxHeader
    rxHCnt := 0
    rxPCnt := 0
    rxCCnt := 0
    rxPLen := 0
    trace := s.trace ++ [.purge .ok, .tx (encodeRequest s.seq r) (.written (encodeRequest s.seq r).length), .flush]
    line := ⟨s.line.purges.tail, s.line.writes.tail, s.line.later.headD [], s.line.later.tail⟩ }

/-- A transaction on a transport that takes the request whole is the parser over what arrives after the purge. -/
theorem xact_sent {r : Request} {ret : Return} {s : State} (hi : s.ph = .idle) (hp : s.line.purges.head? = some .ok)
    (hw : s.line.writes.head? = some (.written (encodeRequest s.seq r).length)) :
    xact r ret s = receive (s.line.later.headD []) (requestSent r ret s) := by
  obtain ⟨ps, hps⟩ := List.head?_eq_some_iff.mp hp
  obtain ⟨ws, hws⟩ := List.head?_eq_some_iff.mp hw
  rw [xact, if_pos hi, transact_purged (ps := ps) (op := latch s.seq r) (by simpa using hps) (by simp),
    sendAndReceive_sent (ws := ws)]
  · simp [requestSent, flushPhase, startDecode, tFlush, record, loadRequest, accept, clearCrcFlags, txFrame, hps, hws]
  · simp [hws, txFrame]

/-- A command is refused where another is in flight, and accepted where none is (R176, R194). -/
theorem xact_busy {r : Request} {ret : Return} {s : State} (h : s.ph ≠ .idle) : xact r ret s = .refused .overlap := by
  simp [xact, h]

theorem xact_idle {r : Request} {ret : Return} {s : State} (h : s.ph = .idle) :
    xact r ret s = transact (accept r ret s) := by
  simp [xact, h]

/-! The arrival of bytes (R52, R216). -/

theorem arrive_receiving {bs : List Byte} {s : State} (h : s.ph = .rxHeader ∨ s.ph = .rxPayload) :
    arrive bs s = receive (s.line.rx ++ delivers bs) { s with line := { s.line with rx := s.line.rx ++ delivers bs } } := by
  rcases h with h | h <;> simp [arrive, h, delivers]

theorem arrive_waiting {bs : List Byte} {s : State} (h1 : s.ph ≠ .rxHeader) (h2 : s.ph ≠ .rxPayload) :
    arrive bs s = .next { s with line := { s.line with rx := s.line.rx ++ delivers bs } } := by
  cases h : s.ph <;> simp_all [arrive, delivers]

/-! The instructions. -/

theorem wordsToBytes_length (o : PayloadOrder) (ws : List Word) : (wordsToBytes o ws).length = 2 * ws.length := by
  induction ws with
  | nil => rfl
  | cons w ws ih =>
    have h2 : (wordBytes o w).length = 2 := by cases o <;> rfl
    simp only [wordsToBytes, List.flatMap_cons, List.length_append, h2, List.length_cons] at ih ⊢
    omega

theorem u32ToBytes_length (o : PayloadOrder) (v : Ticks) : (u32ToBytes o v).length = 4 := by
  cases o <;> rfl

/-- A well-formed command is the transaction of its request, with what its rule does with the frame (R192). -/
theorem exec_command {i : Instr} {s : State} {r : Request} (hwf : i.wf = true) (hr : i.request s.cfg = some r) :
    exec i s = xact r (returnOf i) s := by
  cases i <;> simp only [Instr.request, Option.some.injEq, reduceCtorEq] at hr <;> subst hr
  case writeReg idx off wc words =>
    have hw : wordsMatch wc words = true := hwf
    simp [exec, execWriteReg, writeRegister, hw, returnOf]
  all_goals rfl

/-- An accepted command on a transport that takes its request whole is the parser over what arrives after the purge. -/
theorem exec_ready {i : Instr} {s : State} {r : Request} {reads : List ReadAnswer} (ha : Accepted i s r)
    (hr : Ready s (encodeRequest s.seq r).length reads) :
    exec i s = receive reads (requestSent r (returnOf i) s) := by
  rw [exec_command ha.wf ha.request, xact_sent ha.idle hr.purge hr.write, hr.arrives]

/-- The two response formats are the arrival of their bytes (R142, R146). -/
theorem exec_response {i : Instr} {s : State} {seq : Nibble} (hwf : i.wf = true) (hc : i.isCommand = false) :
    exec i s = arrive (encode s.cfg seq i) s := by
  cases i <;> first | (simp [Instr.isCommand, Instr.row, Row.isCommand] at hc; done) | skip
  all_goals simp [exec, execRspOk, execRspErr, hwf, encode]

/-! The step. -/

theorem secondHalfDue_iff {s : State} : secondHalfDue s = true ↔ s.syncPending = true ∧ s.ph = .idle := by
  simp [secondHalfDue]

theorem not_secondHalfDue_iff {s : State} : secondHalfDue s = false ↔ (s.syncPending = true → s.ph ≠ .idle) := by
  simp [secondHalfDue]

/-- With no second half of `SYNC_POSITION` due, a step takes the next input. -/
theorem fetch_input {s : State} (hq : secondHalfDue s = false) : fetch s = fetchInput s := by
  simp [fetch, hq]

theorem step_command {s : State} {i : Instr} {rest : List Input} (hq : secondHalfDue s = false)
    (h : s.inbox = .command i :: rest) : step s = exec i { s with inbox := rest } := by
  simp [step, fetch_input hq, fetchInput, h]

theorem step_response {s : State} {i : Instr} {bs tail : List Byte} {rest : List Input}
    (hq : secondHalfDue s = false) (h : s.inbox = .frame bs :: rest) (hd : decodeResponse bs = .ok (i, tail)) :
    step s = exec i { s with inbox := putBack tail rest } := by
  simp [step, fetch_input hq, fetchInput, h, hd]

theorem step_bytes {s : State} {bs : List Byte} {e : DecodeError} {rest : List Input}
    (hq : secondHalfDue s = false) (h : s.inbox = .frame bs :: rest) (hd : decodeResponse bs = .error e) :
    step s = arrive bs { s with inbox := rest } := by
  simp [step, fetch_input hq, fetchInput, h, hd]

theorem step_tick {s : State} (hq : secondHalfDue s = false) (h : s.inbox = []) : step s = tick s := by
  simp [step, fetch_input hq, fetchInput, h]

theorem step_reset {s : State} {rest : List Input} (hq : secondHalfDue s = false)
    (h : s.inbox = .reset :: rest) : step s = .next (resetBlock { s with inbox := rest }) := by
  simp [step, fetch_input hq, fetchInput, h]

theorem step_syncPosition {s : State} {ticks : Ticks} {rest : List Input} (hq : secondHalfDue s = false)
    (h : s.inbox = .syncPosition ticks :: rest) :
    step s = exec (.setMeasuredPosition ticks) { s with inbox := rest, syncPending := true } := by
  simp [step, fetch_input hq, fetchInput, h]

theorem step_secondHalf {s : State} (hq : secondHalfDue s = true) :
    step s = if s.res = some .ok then exec .sync { s with syncPending := false } else .next { s with syncPending := false } := by
  by_cases hr : s.res = some .ok <;> simp [step, fetch, secondHalf, hq, hr]

/-- Everything a step can be: a command, a response or other bytes with its input taken, a reset, the first or the second half of a
`SYNC_POSITION`, or a small step of the block. -/
theorem step_cases (s : State) :
    (∃ i rest, s.inbox = .command i :: rest ∧ step s = exec i { s with inbox := rest }) ∨
    (∃ bs i tail rest, s.inbox = .frame bs :: rest ∧ decodeResponse bs = .ok (i, tail) ∧
      step s = exec i { s with inbox := putBack tail rest }) ∨
    (∃ bs rest, s.inbox = .frame bs :: rest ∧ step s = arrive bs { s with inbox := rest }) ∨
    (∃ rest, s.inbox = .reset :: rest ∧ step s = .next (resetBlock { s with inbox := rest })) ∨
    (∃ ticks rest, s.inbox = .syncPosition ticks :: rest ∧
      step s = exec (.setMeasuredPosition ticks) { s with inbox := rest, syncPending := true }) ∨
    (secondHalfDue s = true ∧ s.res = some .ok ∧ step s = exec .sync { s with syncPending := false }) ∨
    (secondHalfDue s = true ∧ s.res ≠ some .ok ∧ step s = .next { s with syncPending := false }) ∨
    (s.inbox = [] ∧ step s = tick s) := by
  cases hq : secondHalfDue s with
  | true =>
    by_cases hr : s.res = some .ok
    · exact .inr (.inr (.inr (.inr (.inr (.inl ⟨rfl, hr, by rw [step_secondHalf hq, if_pos hr]⟩)))))
    · exact .inr (.inr (.inr (.inr (.inr (.inr (.inl ⟨rfl, hr, by rw [step_secondHalf hq, if_neg hr]⟩))))))
  | false =>
    cases h : s.inbox with
    | nil => exact .inr (.inr (.inr (.inr (.inr (.inr (.inr ⟨rfl, step_tick hq h⟩))))))
    | cons x rest =>
      cases x with
      | command i => exact .inl ⟨i, rest, rfl, step_command hq h⟩
      | frame bs =>
        cases hx : decodeResponse bs with
        | ok x => exact .inr (.inl ⟨bs, x.1, x.2, rest, rfl, hx, step_response hq h hx⟩)
        | error e => exact .inr (.inr (.inl ⟨bs, rest, rfl, step_bytes hq h hx⟩))
      | reset => exact .inr (.inr (.inr (.inl ⟨rest, rfl, step_reset hq h⟩)))
      | syncPosition ticks => exact .inr (.inr (.inr (.inr (.inl ⟨ticks, rest, rfl, step_syncPosition hq h⟩))))

end Sys2Proof.Machine
end

