-- ==== Sys2Proof/Tests/Slice0.lean ====
section
/-! SUPPORT. The model's own tests: expected values are the spec's (spec/95_test_vectors.md unless a comment names another place), each
test one step on a small state; and, for every statement with hypotheses, a named witness that meets them. -/

namespace Sys2Proof.Tests

open Sys2Proof.Machine

/-! The configuration CFG-A of spec/95_test_vectors.md and small states. -/

/-- CFG-A, with a payload order and a setting of `VERIFY_RESPONSE_CRC`. -/
def cfgOf (o : PayloadOrder) (verify : Bool) : Config :=
  ⟨0, o, verify, 1000, 0x000F, 0x0001, 0x0000, 0x0020, 0x0040, 0x0008, 0x0100, RegMap.source⟩

def cfgA : Config :=
  cfgOf .le false

/-- An idle block whose transport takes a frame of `len` bytes and then answers the reads `reads`. -/
def readyIn (cfg : Config) (seq : Nibble) (len : Nat) (reads : List ReadAnswer) : State :=
  { State.resetWith cfg with seq := seq, line := ⟨[.ok], [.written len], delivers [0xEE], [reads]⟩ }

def ready (len : Nat) (bs : List Byte) : State :=
  readyIn cfgA 0 len (delivers bs)

/-- The result, the value, the sequence counter and the request frames of a run. -/
def outcome (o : Result) : Option (Option ResultCode × Option Value × Nibble × List (List Byte)) :=
  (stateOf o).map fun t =>
    (t.res, t.rval, t.seq, t.trace.filterMap fun e => match e with | .tx f _ => some f | _ => none)

/-- The acknowledgement of V-R1 and the position answer of V-D1 b. -/
def ack : List Byte :=
  [0xA5, 0x3F, 0x02, 0x01, 0x00, 0x00, 0x11, 0x66]

def position : List Byte :=
  [0xA5, 0x3F, 0x01, 0x01, 0x00, 0x02, 0xAA, 0xF8, 0x45, 0x23, 0x01, 0x00, 0x3E, 0x7E]

def statusWord : List Byte :=
  [0xA5, 0x3F, 0x01, 0x01, 0x00, 0x01, 0x9A, 0x9B, 0x21, 0x84, 0xE4, 0xDB]

/-! WellFormed: an ill-formed term for each check (V-E3, V-X2). -/

theorem test_wf_writeReg_tooFewWords : (Instr.writeReg 0x01 0x00 2 [0x0020]).wf = false := by decide
theorem test_wf_writeReg_tooManyWords : (Instr.writeReg 0x01 0x00 0 [0x0020]).wf = false := by decide
theorem test_wf_rspOk_status : (Instr.rspOk ⟨0xA5, 0x3F, 2, 2, 0, 0, 0⟩ [] none).wf = false := by decide
theorem test_wf_rspOk_payload : (Instr.rspOk ⟨0xA5, 0x3F, 2, 1, 0, 1, 0⟩ [1] (some 0)).wf = false := by decide
theorem test_wf_rspOk_crcMissing : (Instr.rspOk ⟨0xA5, 0x3F, 2, 1, 0, 1, 0⟩ [1, 2] none).wf = false := by decide
theorem test_wf_rspOk_crcOfNothing : (Instr.rspOk ⟨0xA5, 0x3F, 2, 1, 0, 0, 0⟩ [] (some 0)).wf = false := by decide
theorem test_wf_rspErr_status : (Instr.rspErr ⟨0xA5, 0x3F, 2, 1, 0, 0, 0⟩).wf = false := by decide
theorem test_wf_request_readWithPayload : (Request.wf ⟨.read, 0x12, 0, 2, some []⟩) = false := by decide
theorem test_wf_request_shortPayload : (Request.wf ⟨.write, 0x12, 0, 2, some [1, 2]⟩) = false := by decide
theorem test_wf_request_noPayload : (Request.wf ⟨.write, 0x12, 0, 1, none⟩) = false := by decide
theorem test_wf_request_payloadOfNothing : (Request.wf ⟨.write, 0x12, 0, 0, some [1, 2]⟩) = false := by decide

/-! The CRC unit (V-C1, V-C2, V-C3). -/

theorem test_crcByte_first : crcByte 0x0000 0x31 = 0x2672 := by decide
theorem test_crcByte_topBit : crcByte 0x8000 0x00 = 0x9188 ∧ crcByte 0xFFFF 0x00 = 0xE1F0 := by decide
theorem test_crcShifts_steps :
    (List.range 9).map (fun k => crcShifts k 0x3100) =
      [0x3100, 0x6200, 0xC400, 0x9821, 0x2063, 0x40C6, 0x818C, 0x1339, 0x2672] := by decide
theorem test_crcParallel : crcByteParallel 0x0000 0x31 = 0x2672 := by decide

/-! Decoding: a word of every row written out from the spec (V-R1, V-R3, V-D1, V-D2), the operands of the row, nothing left over. -/

theorem test_decode_readReg :
    decodeAs .le .readReg [0xA5, 0x3F, 0x01, 0x10, 0x20, 0xFF, 0xE6, 0xFF] = .ok (.readReg 0x10 0x20 255, []) := by decide
theorem test_decode_writeReg :
    decode .be [0xA5, 0x3F, 0x02, 0x22, 0x05, 0x02, 0x11, 0x47, 0x12, 0x34, 0xAB, 0xCD, 0x26, 0xCF] =
      .ok (.writeReg 0x22 0x05 2 [0x1234, 0xABCD], []) := by decide
theorem test_decode_gainWriteAccess :
    decode .le [0xA5, 0x3F, 0x02, 0x07, 0x00, 0x01, 0xB3, 0xE7, 0x0F, 0x00, 0x10, 0x3E] = .ok (.gainWriteAccess, []) := by decide
theorem test_decode_sharedHeader :
    let f : List Byte := [0xA5, 0x3F, 0x02, 0x01, 0x00, 0x01, 0x01, 0x47, 0x20, 0x00, 0x06, 0xE6]
    decodeAs .le .enableBridge f = .ok (.enableBridge, []) ∧ decodeAs .le .disableBridge f = .ok (.disableBridge, []) ∧
    decodeAs .le .home f = .ok (.home, []) ∧ decodeAs .le .stop f = .ok (.stop, []) ∧
    decodeAs .le .resetEvents f = .ok (.resetEvents, []) ∧ decodeAs .le .sync f = .ok (.sync, []) := by decide
theorem test_decode_setMeasuredPosition :
    decode .le [0xA5, 0x3F, 0x02, 0x39, 0x00, 0x02, 0x5D, 0x20, 0x45, 0x23, 0x01, 0x00, 0x3E, 0x7E] =
      .ok (.setMeasuredPosition 0x00012345, []) := by decide
theorem test_decode_gotoTicks :
    decode .be [0xA5, 0x3F, 0x0A, 0x45, 0x00, 0x02, 0x75, 0x8A, 0x00, 0x0E, 0xCC, 0x70, 0x36, 0xAF] =
      .ok (.gotoTicks 969840, []) := by decide
theorem test_decode_getPositionTicks :
    decode .le [0xA5, 0x3F, 0x3D, 0x12, 0x00, 0x02, 0xD3, 0x10] = .ok (.getPositionTicks, []) := by decide
theorem test_decode_getStatus :
    decode .le [0xA5, 0x3F, 0x09, 0x02, 0x03, 0x01, 0x13, 0x5B] = .ok (.getStatus 3, []) := by decide
theorem test_decode_getFirmwareInfo :
    decode .le [0xA5, 0x3F, 0x01, 0x0B, 0x00, 0x80, 0xDC, 0xF3] = .ok (.getFirmwareInfo, []) := by decide
theorem test_decode_getProductInfo :
    decode .le [0xA5, 0x3F, 0x01, 0x8C, 0x00, 0x31, 0xD5, 0xC3] = .ok (.getProductInfo, []) := by decide
theorem test_decode_rspOk :
    decodeResponse (position ++ [0x99]) =
      .ok (.rspOk ⟨0xA5, 0x3F, 0x01, 0x01, 0x00, 0x02, 0xAAF8⟩ [0x45, 0x23, 0x01, 0x00] (some 0x3E7E), [0x99]) := by decide
theorem test_decode_rspErr :
    decodeResponse [0xA5, 0x3F, 0x15, 0x03, 0x00, 0x02, 0x15, 0xCE, 0xEF, 0xBE] =
      .ok (.rspErr ⟨0xA5, 0x3F, 0x15, 0x03, 0x00, 0x02, 0x15CE⟩, [0xEF, 0xBE]) := by decide
/-- The match of every row, against the numbers of spec/opcode_table.json. -/
theorem test_matchBits :
    [Row.readReg, .writeReg, .gainWriteAccess, .enableBridge, .disableBridge, .home, .stop, .resetEvents, .sync,
      .setMeasuredPosition, .gotoTicks, .getPositionTicks, .getStatus, .getFirmwareInfo, .getProductInfo, .rspOk, .rspErr].map
      Row.matchBits =
    [0xA53F01000000, 0xA53F02000000, 0xA53F02070001, 0xA53F02010001, 0xA53F02010001, 0xA53F02010001, 0xA53F02010001,
      0xA53F02010001, 0xA53F02010001, 0xA53F02390002, 0xA53F02450002, 0xA53F01120002, 0xA53F01020001, 0xA53F010B0080,
      0xA53F018C0031, 0x000000010000, 0x000000000000] := by decide
/-- Direction values `00` and `11` and a set bit 7 or 6 are no request (R92). -/
theorem test_decode_refused :
    parseRequest [0xA5, 0x3F, 0x00, 0, 0, 0, 0, 0] = .error .badDirection ∧
    parseRequest [0xA5, 0x3F, 0x03, 0, 0, 0, 0, 0] = .error .badDirection ∧
    parseRequest [0xA5, 0x3F, 0x41, 0, 0, 0, 0, 0] = .error .reservedBits ∧
    parseRequest [0xA5, 0x3E, 0x01, 0, 0, 0, 0, 0] = .error .notRequest ∧
    parseRequest [0xA5, 0x3F, 0x02, 0, 0, 1, 0, 0, 0] = .error .truncatedPayload := by decide
theorem test_decodeTableWord :
    decodeTableWord 48 0xA53F01120002 = some .getPositionTicks ∧ decodeTableWord 48 0xA53F02450002 = some (.gotoTicks 0) ∧
    decodeTableWord 48 0x000000010000 = some (.rspOk ⟨0, 0, 0, 1, 0, 0, 0⟩ [] none) ∧
    decodeTableWord 48 0x000000000000 = some (.rspErr ⟨0, 0, 0, 0, 0, 0, 0⟩) := by decide +kernel

/-! The commands (V-R1, V-R2, V-R3): the frame sent, the result, the value and the sequence counter. -/

theorem test_readReg :
    outcome (exec (.readReg 0x12 0x00 2) (ready 8 position)) =
      some (some .ok, some (.bytes [0x45, 0x23, 0x01, 0x00]), 1, [[0xA5, 0x3F, 0x01, 0x12, 0x00, 0x02, 0xB0, 0xCB]]) := by decide +kernel
theorem test_writeReg :
    outcome (exec (.writeReg 0x22 0x05 2 [0x1234, 0xABCD]) (ready 14 ack)) =
      some (some .ok, none, 1, [[0xA5, 0x3F, 0x02, 0x22, 0x05, 0x02, 0x11, 0x47, 0x34, 0x12, 0xCD, 0xAB, 0xAF, 0x92]]) := by
  decide +kernel
theorem test_writeReg_refused : exec (.writeReg 0x01 0x00 2 [0x0020]) (ready 12 ack) = .refused .illFormed := by
  rfl
theorem test_gainWriteAccess :
    outcome (exec .gainWriteAccess (ready 12 ack)) =
      some (some .ok, none, 1, [[0xA5, 0x3F, 0x02, 0x07, 0x00, 0x01, 0xB3, 0xE7, 0x0F, 0x00, 0x10, 0x3E]]) := by decide +kernel
theorem test_enableBridge :
    outcome (exec .enableBridge (ready 12 ack)) =
      some (some .ok, none, 1, [[0xA5, 0x3F, 0x02, 0x01, 0x00, 0x01, 0x01, 0x47, 0x01, 0x00, 0x33, 0x31]]) := by decide +kernel
theorem test_disableBridge :
    outcome (exec .disableBridge (ready 12 ack)) =
      some (some .ok, none, 1, [[0xA5, 0x3F, 0x02, 0x01, 0x00, 0x01, 0x01, 0x47, 0x00, 0x00, 0x00, 0x00]]) := by decide +kernel
theorem test_home :
    outcome (exec .home (ready 12 ack)) =
      some (some .ok, none, 1, [[0xA5, 0x3F, 0x02, 0x01, 0x00, 0x01, 0x01, 0x47, 0x20, 0x00, 0x06, 0xE6]]) := by decide +kernel
theorem test_stop :
    outcome (exec .stop (ready 12 ack)) =
      some (some .ok, none, 1, [[0xA5, 0x3F, 0x02, 0x01, 0x00, 0x01, 0x01, 0x47, 0x40, 0x00, 0x0D, 0xCC]]) := by decide +kernel
/-- The sequence number wraps from 15 to 0 (R183). -/
theorem test_resetEvents :
    outcome (exec .resetEvents (readyIn cfgA 15 12 (delivers ack))) =
      some (some .ok, none, 0, [[0xA5, 0x3F, 0x3E, 0x01, 0x00, 0x01, 0x62, 0x9C, 0x08, 0x00, 0x89, 0xA9]]) := by decide +kernel
theorem test_sync :
    outcome (exec .sync (readyIn (cfgOf .be false) 0 12 (delivers ack))) =
      some (some .ok, none, 1, [[0xA5, 0x3F, 0x02, 0x01, 0x00, 0x01, 0x01, 0x47, 0x01, 0x00, 0x33, 0x31]]) := by decide +kernel
theorem test_setMeasuredPosition :
    outcome (exec (.setMeasuredPosition 0x00012345) (ready 14 ack)) =
      some (some .ok, none, 1, [[0xA5, 0x3F, 0x02, 0x39, 0x00, 0x02, 0x5D, 0x20, 0x45, 0x23, 0x01, 0x00, 0x3E, 0x7E]]) := by decide +kernel
theorem test_gotoTicks :
    outcome (exec (.gotoTicks 0xFFFFFFFF) (ready 14 ack)) =
      some (some .ok, none, 1, [[0xA5, 0x3F, 0x02, 0x45, 0x00, 0x02, 0xF0, 0x49, 0xFF, 0xFF, 0xFF, 0xFF, 0x99, 0xCF]]) := by decide +kernel
theorem test_getPositionTicks :
    outcome (exec .getPositionTicks (ready 8 position)) =
      some (some .ok, some (.u32 0x00012345), 1, [[0xA5, 0x3F, 0x01, 0x12, 0x00, 0x02, 0xB0, 0xCB]]) := by decide +kernel
theorem test_getPositionTicks_be :
    (outcome (exec .getPositionTicks (readyIn (cfgOf .be false) 0 8 (delivers position)))).map (fun x => x.2.1) =
      some (some (.u32 0x45230100)) := by decide +kernel
theorem test_getStatus :
    outcome (exec (.getStatus 3) (readyIn cfgA 2 8 (delivers statusWord))) =
      some (some .ok, some (.u16 0x8421), 3, [[0xA5, 0x3F, 0x09, 0x02, 0x03, 0x01, 0x13, 0x5B]]) := by decide +kernel
/-- No words for a typed read: the fault ShortPayload, with the counter advanced (V-R3 h). -/
theorem test_getStatus_short :
    (match exec (.getStatus 0) (ready 8 [0xA5, 0x3F, 0x01, 0x01, 0x00, 0x00, 0x8A, 0xBA]) with
      | .fault (.shortPayload t) => t.seq == 1 && t.rval.isNone
      | _ => false) = true := by decide +kernel
theorem test_getFirmwareInfo :
    outcome (exec .getFirmwareInfo (ready 8 statusWord)) =
      some (some .ok, some (.bytes [0x21, 0x84]), 1, [[0xA5, 0x3F, 0x01, 0x0B, 0x00, 0x80, 0xDC, 0xF3]]) := by decide +kernel
theorem test_getProductInfo :
    outcome (exec .getProductInfo (ready 8 statusWord)) =
      some (some .ok, some (.bytes [0x21, 0x84]), 1, [[0xA5, 0x3F, 0x01, 0x8C, 0x00, 0x31, 0xD5, 0xC3]]) := by decide +kernel

/-! The parser (V-D2, P5) and the responses as they arrive. -/

/-- Both CRCs are enforced when configured, and a mismatch is recorded either way (P5). -/
theorem test_crcEnforced :
    let bad := position.dropLast ++ [0x7F]
    ((stateOf (exec .getPositionTicks (readyIn cfgA 0 8 (delivers bad)))).map fun t => (t.res, t.pcrcCalc, t.pcrcRecv, t.pcrcOk)) =
      some (some .ok, some 0x3E7E, some 0x3E7F, some false) ∧
    ((stateOf (exec .getPositionTicks (readyIn (cfgOf .le true) 0 8 (delivers bad)))).map fun t => (t.res, t.rval, t.pcrcOk)) =
      some (some .crcMismatch, none, some false) := by decide +kernel
/-- `BadResponse` after eight bytes, with the payload block left in the transport (V-D2 j). -/
theorem test_badResponse :
    ((stateOf (exec .getPositionTicks (ready 8
      [0xA5, 0x3F, 0x15, 0x03, 0x00, 0x02, 0x15, 0xCE, 0xEF, 0xBE, 0xAD, 0xDE, 0xF4, 0x6B]))).map fun t => (t.res, t.line.rx)) =
      some (some .badResponse, delivers [0xEF, 0xBE, 0xAD, 0xDE, 0xF4, 0x6B]) := by decide +kernel

/-- A block whose parser waits for its first byte: a position read in flight. -/
def waiting : State :=
  (stateOf (exec .getPositionTicks (ready 8 []))).getD State.reset

theorem test_rspOk :
    ((stateOf (exec (.rspOk ⟨0xA5, 0x3F, 0x01, 0x01, 0x00, 0x02, 0xAAF8⟩ [0x45, 0x23, 0x01, 0x00] (some 0x3E7E)) waiting)).map
      fun t => (t.ph, t.res, t.rval)) = some (.idle, some .ok, some (.u32 0x00012345)) := by decide +kernel
theorem test_rspErr :
    ((stateOf (exec (.rspErr ⟨0xA5, 0x3F, 0x02, 0x02, 0x00, 0x00, 0x4836⟩) waiting)).map fun t => (t.ph, t.res, t.hcrcOk)) =
      some (.idle, some .badResponse, some true) := by decide +kernel

/-- The first step after reset with a table word placed runs it: nothing has answered, so the command is in phase `Purging`. -/
theorem test_withFetchWord :
    ((stateOf (step (State.withFetchWord State.reset 48 0xA53F01120002))).map fun t => t.ph) = some .purging := by
  rfl

/-! Witnesses: for every statement with hypotheses, a concrete state and operands that meet all of them together. -/

/-- The response headers the witnesses use: an acknowledgement, one and two words, all with right CRCs, and an error. -/
def hdrAck : RspHeader := ⟨0xA5, 0x3F, 0x02, 0x01, 0x00, 0x00, 0x1166⟩
def hdrOne : RspHeader := ⟨0xA5, 0x3F, 0x01, 0x01, 0x00, 0x01, 0x9A9B⟩
def hdrTwo : RspHeader := ⟨0xA5, 0x3F, 0x01, 0x01, 0x00, 0x02, 0xAAF8⟩
def hdrMax : RspHeader := ⟨0xA5, 0x3F, 0x01, 0x01, 0x00, 0xFF, 0x944A⟩
def hdrErr : RspHeader := ⟨0xA5, 0x3F, 0x02, 0x02, 0x00, 0x00, 0x4836⟩

/-- The state in which a command is answered by the reads given. -/
def before (cfg : Config) (i : Instr) (reads : List ReadAnswer) : State :=
  match i.request cfg with
  | some r => readyIn cfg 0 (encodeRequest 0 r).length reads
  | none => State.resetWith cfg

theorem accepted_before {cfg : Config} {i : Instr} {r : Request} (reads : List ReadAnswer) (hw : i.wf = true)
    (hr : i.request cfg = some r) : Accepted i (before cfg i reads) r := by
  unfold before
  rw [hr]
  exact ⟨hw, rfl, hr⟩

theorem ready_before {cfg : Config} {i : Instr} {r : Request} (reads : List ReadAnswer) (hr : i.request cfg = some r) :
    Ready (before cfg i reads) (encodeRequest (before cfg i reads).seq r).length reads := by
  unfold before
  rw [hr]
  exact ⟨rfl, rfl, rfl⟩

theorem cfg_before (cfg : Config) (i : Instr) (reads : List ReadAnswer) : (before cfg i reads).cfg = cfg := by
  unfold before
  split <;> rfl

theorem answered_before {cfg : Config} {i : Instr} {r : Request} {h : RspHeader} {p : List Byte} {c : Option Word}
    (rest : List ReadAnswer) (hw : i.wf = true) (hr : i.request cfg = some r) (hp : (Instr.rspOk h p c).wf = true)
    (hc : CrcsAccepted cfg h p c) :
    Answered i (before cfg i (delivers (responseBytes h p c) ++ rest)) r h p c rest :=
  ⟨accepted_before _ hw hr, hp, (cfg_before cfg i _).symm ▸ hc, ready_before _ hr⟩

theorem crcs_ack (cfg : Config) : CrcsAccepted cfg hdrAck [] none := fun _ => ⟨by decide +kernel, fun _ h => by cases h⟩
theorem crcs_one (cfg : Config) : CrcsAccepted cfg hdrOne [0x21, 0x84] (some 0xE4DB) :=
  fun _ => ⟨by decide +kernel, fun _ h => by cases h; decide +kernel⟩
theorem crcs_two (cfg : Config) : CrcsAccepted cfg hdrTwo [0x45, 0x23, 0x01, 0x00] (some 0x3E7E) :=
  fun _ => ⟨by decide +kernel, fun _ h => by cases h; decide +kernel⟩

/-- CRCs enforced: the stronger premise. -/
def cfgV : Config :=
  cfgOf .le true

theorem witness_CrcZeroResidueAndLinearity : ([0x12, 0x34, 0x56] : List Byte).length = ([0xAB, 0xCD, 0xEF] : List Byte).length := rfl

theorem witness_RequestLengthFollowsThePayload :
    (Request.wf ⟨.read, 0x10, 0x20, 255, none⟩) = true ∧ (Request.wf ⟨.write, 0x10, 0x20, 0, some []⟩) = true ∧
    (Request.wf ⟨.write, 0x01, 0x00, 1, some [0x20, 0x00]⟩) = true ∧
    (Request.wf ⟨.write, 0x10, 0x20, 255, some (List.replicate 510 0x5A)⟩) = true := by decide +kernel

theorem witness_RequestPayloadBlockFollowsTheHeader :
    (Request.wf ⟨.write, 0x10, 0x20, 255, some (List.replicate 510 0x5A)⟩) = true ∧ (255 : Byte) ≠ 0 ∧
    (Request.wf ⟨.read, 0x10, 0x20, 255, none⟩) = true ∧ (Request.wf ⟨.write, 0x10, 0x20, 0, none⟩) = true := by decide +kernel

theorem witness_CommandsSendTheirMappedRequests : cfgA.regMap = RegMap.source ∧ (1 : Byte) ≠ 0 := by decide

theorem witness_DecodeReadsBackEveryInstruction :
    cfgA.regMap = RegMap.source ∧ (Instr.writeReg 0x22 0x05 2 [0x1234, 0xABCD]).wf = true ∧
    (Instr.rspOk hdrTwo [0x45, 0x23, 0x01, 0x00] (some 0x3E7E)).wf = true ∧ (Instr.rspErr hdrErr).wf = true := by decide

theorem witness_RequestOperandsAreReadBack :
    (Request.wf ⟨.write, 0x01, 0x00, 1, some [0x20, 0x00]⟩) = true ∧ (some [0x20, 0x00] : Option (List Byte)) ≠ some [] := by decide

theorem witness_ResponseBytesAreAllKept :
    decodeResponse (ack ++ [0x99]) = .ok (.rspOk hdrAck [] none, [0x99]) := by decide

theorem witness_StepRunsTheInstructionItTakes :
    (secondHalfDue { State.resetWith cfgA with inbox := [.command .home, .reset] } = false ∧
      secondHalfDue { State.resetWith cfgA with inbox := [.frame (ack ++ [0x99])] } = false ∧
      secondHalfDue (State.resetWith cfgA) = false ∧
      secondHalfDue { State.resetWith cfgA with syncPending := true } = true) ∧
    { State.resetWith cfgA with inbox := [.command .home, .reset] }.inbox = .command .home :: [.reset] ∧
    { State.resetWith cfgA with inbox := [.frame (ack ++ [0x99])] }.inbox = .frame (ack ++ [0x99]) :: [] ∧
    decodeResponse (ack ++ [0x99]) = .ok (.rspOk hdrAck [] none, [0x99]) ∧ decodeResponse ack = .ok (.rspOk hdrAck [] none, []) ∧
    ({ State.resetWith cfgA with inbox := [.frame (position.take 10)] }.inbox = .frame (position.take 10) :: [] ∧
      secondHalfDue { State.resetWith cfgA with inbox := [.frame (position.take 10)] } = false ∧
      decodeResponse (position.take 10) = .error .truncatedPayload) ∧
    decodeTableWord 48 0xA53F01120002 = some .getPositionTicks ∧
    decodeTableWord 48 0x000000000000 = some (.rspErr ⟨0, 0, 0, 0, 0, 0, 0⟩) := by decide +kernel

theorem witness_IdleBlockDoesNothing : 
    (ready 8 ack).ph = .idle ∧ (ready 8 ack).inbox = [] ∧ (ready 8 ack).syncPending = false := by decide

/-- A reset that reaches a `SYNC_POSITION` in flight. -/
theorem witness_ResetAbandonsTheCommandInFlight :
    secondHalfDue { waiting with syncPending := true, inbox := [.reset, .command .home] } = false ∧
    { waiting with syncPending := true, inbox := [.reset, .command .home] }.inbox = .reset :: [.command .home] := by decide +kernel

theorem witness_ReadRegReturnsThePayload :
    Answered (.readReg 0x12 0x00 2) (before cfgV (.readReg 0x12 0x00 2) (delivers position ++ [.noData]))
      ⟨.read, 0x12, 0x00, 2, none⟩ hdrTwo [0x45, 0x23, 0x01, 0x00] (some 0x3E7E) [.noData] :=
  answered_before _ rfl rfl (by decide) (crcs_two _)

theorem witness_WriteRegEndsWithoutAValue :
    Answered (.writeReg 0x22 0x05 2 [0x1234, 0xABCD]) (before cfgV (.writeReg 0x22 0x05 2 [0x1234, 0xABCD]) (delivers ack ++ []))
      ⟨.write, 0x22, 0x05, 2, some [0x34, 0x12, 0xCD, 0xAB]⟩ hdrAck [] none [] :=
  answered_before _ rfl (by decide) (by decide) (crcs_ack _)

theorem witness_WriteRegEndsWithoutAValue_zero :
    Answered (.writeReg 0x10 0x20 0 []) (before cfgV (.writeReg 0x10 0x20 0 []) (delivers ack ++ []))
      ⟨.write, 0x10, 0x20, 0, none⟩ hdrAck [] none [] :=
  answered_before _ rfl (by decide) (by decide) (crcs_ack _)

/-- All seven one-word writes. -/
theorem witness_OneWordWritesEndWithoutAValue :
    Answered .gainWriteAccess (before cfgV .gainWriteAccess (delivers ack ++ [])) ⟨.write, 0x07, 0x00, 1, some [0x0F, 0x00]⟩ hdrAck [] none [] ∧
    Answered .enableBridge (before cfgV .enableBridge (delivers ack ++ [])) ⟨.write, 0x01, 0x00, 1, some [0x01, 0x00]⟩ hdrAck [] none [] ∧
    Answered .disableBridge (before cfgV .disableBridge (delivers ack ++ [])) ⟨.write, 0x01, 0x00, 1, some [0x00, 0x00]⟩ hdrAck [] none [] ∧
    Answered .home (before cfgV .home (delivers ack ++ [])) ⟨.write, 0x01, 0x00, 1, some [0x20, 0x00]⟩ hdrAck [] none [] ∧
    Answered .stop (before cfgV .stop (delivers ack ++ [])) ⟨.write, 0x01, 0x00, 1, some [0x40, 0x00]⟩ hdrAck [] none [] ∧
    Answered .resetEvents (before cfgV .resetEvents (delivers ack ++ [])) ⟨.write, 0x01, 0x00, 1, some [0x08, 0x00]⟩ hdrAck [] none [] ∧
    Answered .sync (before cfgV .sync (delivers ack ++ [])) ⟨.write, 0x01, 0x00, 1, some [0x00, 0x01]⟩ hdrAck [] none [] := by
  refine ⟨?_, ?_, ?_, ?_, ?_, ?_, ?_⟩ <;> exact answered_before _ rfl (by decide) (by decide) (crcs_ack _)

theorem witness_TickWritesEndWithoutAValue :
    Answered (.setMeasuredPosition 0x00012345) (before cfgV (.setMeasuredPosition 0x00012345) (delivers ack ++ []))
      ⟨.write, 0x39, 0x00, 2, some [0x45, 0x23, 0x01, 0x00]⟩ hdrAck [] none [] ∧
    Answered (.gotoTicks 0xFFFFFFFF) (before cfgV (.gotoTicks 0xFFFFFFFF) (delivers ack ++ []))
      ⟨.write, 0x45, 0x00, 2, some [0xFF, 0xFF, 0xFF, 0xFF]⟩ hdrAck [] none [] :=
  ⟨answered_before _ rfl (by decide) (by decide) (crcs_ack _), answered_before _ rfl (by decide) (by decide) (crcs_ack _)⟩

theorem witness_GetPositionTicksReturnsTheFirstTwoWords :
    Answered .getPositionTicks (before cfgV .getPositionTicks (delivers position ++ []))
      ⟨.read, 0x12, 0x00, 2, none⟩ hdrTwo [0x45, 0x23, 0x01, 0x00] (some 0x3E7E) [] :=
  answered_before _ rfl rfl (by decide) (crcs_two _)

theorem witness_GetStatusReturnsTheFirstWord :
    Answered (.getStatus 0xFF) (before cfgV (.getStatus 0xFF) (delivers statusWord ++ []))
      ⟨.read, 0x02, 0xFF, 1, none⟩ hdrOne [0x21, 0x84] (some 0xE4DB) [] :=
  answered_before _ rfl rfl (by decide) (crcs_one _)

theorem witness_InfoReadsReturnThePayload :
    Answered .getFirmwareInfo (before cfgV .getFirmwareInfo (delivers statusWord ++ []))
      ⟨.read, 0x0B, 0x00, 0x80, none⟩ hdrOne [0x21, 0x84] (some 0xE4DB) [] ∧
    Answered .getProductInfo (before cfgV .getProductInfo (delivers statusWord ++ []))
      ⟨.read, 0x8C, 0x00, 0x31, none⟩ hdrOne [0x21, 0x84] (some 0xE4DB) [] :=
  ⟨answered_before _ rfl rfl (by decide) (crcs_one _), answered_before _ rfl rfl (by decide) (crcs_one _)⟩

theorem receiving_waiting : Receiving waiting := by
  constructor <;> decide +kernel

theorem witness_GoodResponseEndsTheCommand :
    Receiving waiting ∧ waiting.ret = .ticks ∧
    (Instr.rspOk hdrTwo [0x45, 0x23, 0x01, 0x00] (some 0x3E7E)).wf = true ∧
    CrcsAccepted waiting.cfg hdrTwo [0x45, 0x23, 0x01, 0x00] (some 0x3E7E) ∧
    resultValue waiting.ret waiting.cfg.payloadOrder [0x45, 0x23, 0x01, 0x00] = some (some (.u32 0x00012345)) :=
  ⟨receiving_waiting, by decide +kernel, by decide, crcs_two _, by decide +kernel⟩

/-- The same block with CRCs enforced. -/
def waitingV : State :=
  (stateOf (exec .getPositionTicks (readyIn cfgV 0 8 []))).getD State.reset

theorem receiving_waitingV : Receiving waitingV := by
  constructor <;> decide +kernel

/-- Each of the three clauses. -/
theorem witness_GoodStatusResponseMayStillFail :
    (Receiving waitingV ∧ (Instr.rspOk { hdrTwo with hcrc := 0 } [0x45, 0x23, 0x01, 0x00] (some 0x3E7E)).wf = true ∧
      waitingV.cfg.verifyResponseCrc = true ∧ crc16 (responseHeader { hdrTwo with hcrc := 0 }) ≠ 0) ∧
    ((Instr.rspOk hdrTwo [0x45, 0x23, 0x01, 0x00] (some 0x3E7F)).wf = true ∧
      crc16 (responseHeader hdrTwo) = hdrTwo.hcrc ∧ crc16 [0x45, 0x23, 0x01, 0x00] ≠ 0x3E7F) ∧
    (waitingV.ret = .ticks ∧
      (Instr.rspOk hdrOne [0x21, 0x84] (some 0xE4DB)).wf = true ∧ CrcsAccepted waitingV.cfg hdrOne [0x21, 0x84] (some 0xE4DB) ∧
      resultValue waitingV.ret waitingV.cfg.payloadOrder [0x21, 0x84] = none) :=
  ⟨⟨receiving_waitingV, by decide, by decide +kernel, by decide +kernel⟩, ⟨by decide, by decide +kernel, by decide +kernel⟩,
    by decide +kernel, by decide, crcs_one _, by decide +kernel⟩

theorem witness_ErrorResponseEndsTheCommand : Receiving waiting ∧ (Instr.rspErr hdrErr).wf = true :=
  ⟨receiving_waiting, by decide⟩

theorem witness_BytesWaitWhenNoReadIsOutstanding :
    (Instr.rspErr hdrErr).isCommand = false ∧ (Instr.rspErr hdrErr).wf = true ∧ (ready 8 ack).ph ≠ .rxHeader ∧
    (ready 8 ack).ph ≠ .rxPayload := by decide

/-- An idle block whose next purge fails, and one whose next write takes a byte too few. -/
def noPurge : State := { State.resetWith cfgA with line := ⟨[.ioError], [], [], []⟩ }
def shortWrite : State := { State.resetWith cfgA with line := ⟨[.ok], [.written 7], [], []⟩ }

theorem witness_FailedPurgeEndsTheCommand :
    Accepted .getPositionTicks noPurge ⟨.read, 0x12, 0x00, 2, none⟩ ∧ noPurge.line.purges.head? = some .ioError :=
  ⟨⟨rfl, rfl, rfl⟩, rfl⟩

theorem witness_FailedWriteEndsTheCommand :
    Accepted .getPositionTicks shortWrite ⟨.read, 0x12, 0x00, 2, none⟩ ∧ shortWrite.line.purges.head? = some .ok ∧
    shortWrite.line.writes.head? = some (.written 7) ∧
    WriteAnswer.written 7 ≠ .written (encodeRequest shortWrite.seq ⟨.read, 0x12, 0x00, 2, none⟩).length :=
  ⟨⟨rfl, rfl, rfl⟩, rfl, rfl, by decide⟩

/-- At seven bytes and at none. -/
theorem witness_HeaderCutShortEndsTheCommand :
    (Accepted .home (before cfgA .home (delivers (ack.take 7) ++ [.noData])) ⟨.write, 1, 0, 1, some [0x20, 0x00]⟩ ∧
      (ack.take 7).length < 8 ∧ readError .noData = some .timeout ∧
      Ready (before cfgA .home (delivers (ack.take 7) ++ [.noData])) 12 (delivers (ack.take 7) ++ .noData :: [])) ∧
    (Accepted .home (before cfgA .home (delivers [] ++ [.ioError])) ⟨.write, 1, 0, 1, some [0x20, 0x00]⟩ ∧
      readError .ioError = some .transportError ∧
      Ready (before cfgA .home (delivers [] ++ [.ioError])) 12 (delivers [] ++ .ioError :: [])) :=
  ⟨⟨accepted_before _ rfl (by decide), by decide, rfl, ready_before (r := ⟨.write, 1, 0, 1, some [0x20, 0x00]⟩) _ (by decide)⟩,
    accepted_before _ rfl (by decide), rfl, ready_before (r := ⟨.write, 1, 0, 1, some [0x20, 0x00]⟩) _ (by decide)⟩

/-- The premises of a payload block cut short. -/
def PayloadCut (bs : List Byte) : Prop :=
  Accepted .getPositionTicks (before cfgV .getPositionTicks (delivers (responseBlock hdrTwo ++ bs) ++ [.noData]))
    ⟨.read, 0x12, 0x00, 2, none⟩ ∧ hdrTwo.status = 1 ∧ hdrTwo.wc ≠ 0 ∧ CrcsAccepted cfgV hdrTwo [] none ∧
  bs.length < 2 * hdrTwo.wc.toNat + 2 ∧ readError .noData = some .timeout ∧
  Ready (before cfgV .getPositionTicks (delivers (responseBlock hdrTwo ++ bs) ++ [.noData])) 8
    (delivers (responseBlock hdrTwo ++ bs) ++ .noData :: [])

theorem payloadCut_of_length {bs : List Byte} (hb : bs.length < 2 * hdrTwo.wc.toNat + 2) : PayloadCut bs :=
  ⟨accepted_before _ rfl rfl, rfl, by decide, fun _ => ⟨by decide +kernel, fun _ h => (by cases h)⟩, hb, rfl,
    ready_before (r := ⟨.read, 0x12, 0x00, 2, none⟩) _ rfl⟩

/-- One byte before the end of the payload block. -/
theorem witness_PayloadCutShortEndsTheCommand : PayloadCut [0x45, 0x23, 0x01, 0x00, 0x3E] :=
  payloadCut_of_length (by decide)

/-- At the beginning of the payload block. -/
theorem witness_PayloadCutShortEndsTheCommand_none : PayloadCut [] :=
  payloadCut_of_length (by decide)

theorem witness_BadStatusEndsTheCommandAtOnce :
    Accepted .home (before cfgV .home (delivers (responseBlock hdrErr) ++ [.byte 0xEF])) ⟨.write, 1, 0, 1, some [0x20, 0x00]⟩ ∧
    hdrErr.status ≠ 1 ∧ CrcsAccepted cfgV hdrErr [] none ∧
    Ready (before cfgV .home (delivers (responseBlock hdrErr) ++ [.byte 0xEF])) 12
      (delivers (responseBlock hdrErr) ++ [.byte 0xEF]) :=
  ⟨accepted_before _ rfl (by decide), by decide, fun _ => ⟨by decide +kernel, fun _ h => by cases h⟩,
    ready_before (r := ⟨.write, 1, 0, 1, some [0x20, 0x00]⟩) _ (by decide)⟩

theorem witness_HeaderCrcMismatchComesBeforeTheStatus :
    Accepted .home (before cfgV .home (delivers (responseBlock { hdrErr with hcrc := 0 }) ++ [])) ⟨.write, 1, 0, 1, some [0x20, 0x00]⟩ ∧
    cfgV.verifyResponseCrc = true ∧ crc16 (responseHeader { hdrErr with hcrc := 0 }) ≠ 0 ∧
    Ready (before cfgV .home (delivers (responseBlock { hdrErr with hcrc := 0 }) ++ [])) 12
      (delivers (responseBlock { hdrErr with hcrc := 0 }) ++ []) :=
  ⟨accepted_before _ rfl (by decide), rfl, by decide +kernel,
    ready_before (r := ⟨.write, 1, 0, 1, some [0x20, 0x00]⟩) _ (by decide)⟩

theorem witness_PayloadCrcMismatchEndsTheCommand :
    Accepted .getPositionTicks (before cfgV .getPositionTicks
      (delivers (responseBytes hdrTwo [0x45, 0x23, 0x01, 0x00] (some 0x3E7F)) ++ [])) ⟨.read, 0x12, 0x00, 2, none⟩ ∧
    (Instr.rspOk hdrTwo [0x45, 0x23, 0x01, 0x00] (some 0x3E7F)).wf = true ∧ cfgV.verifyResponseCrc = true ∧
    crc16 (responseHeader hdrTwo) = hdrTwo.hcrc ∧ crc16 [0x45, 0x23, 0x01, 0x00] ≠ 0x3E7F ∧
    Ready (before cfgV .getPositionTicks (delivers (responseBytes hdrTwo [0x45, 0x23, 0x01, 0x00] (some 0x3E7F)) ++ [])) 8
      (delivers (responseBytes hdrTwo [0x45, 0x23, 0x01, 0x00] (some 0x3E7F)) ++ []) :=
  ⟨accepted_before _ rfl rfl, by decide, rfl, by decide +kernel, by decide +kernel,
    ready_before (r := ⟨.read, 0x12, 0x00, 2, none⟩) _ rfl⟩

/-- Two bytes where four are needed, and none where two are. -/
theorem witness_ShortPayloadFaultsTheTypedReads :
    (([0x21, 0x84] : List Byte).length < 4 ∧
      Answered .getPositionTicks (before cfgV .getPositionTicks (delivers statusWord ++ [])) ⟨.read, 0x12, 0x00, 2, none⟩ hdrOne
        [0x21, 0x84] (some 0xE4DB) []) ∧
    (([] : List Byte).length < 2 ∧
      Answered (.getStatus 0) (before cfgV (.getStatus 0) (delivers ack ++ [])) ⟨.read, 0x02, 0x00, 1, none⟩ hdrAck [] none []) :=
  ⟨⟨by decide, answered_before _ rfl rfl (by decide) (crcs_one _)⟩,
    by decide, answered_before _ rfl rfl (by decide) (crcs_ack _)⟩

theorem witness_IllFormedAndOverlappingCommandsAreRefused :
    ([0x0020] : List Word).length ≠ (2 : Byte).toNat ∧ Instr.home.isCommand = true ∧ Instr.home.wf = true ∧ waiting.ph ≠ .idle := by
  decide +kernel

theorem witness_EveryCommandAdvancesSeqOnce :
    Accepted .home (readyIn cfgA 15 12 (delivers ack)) ⟨.write, 1, 0, 1, some [0x20, 0x00]⟩ :=
  ⟨rfl, rfl, by decide⟩

theorem witness_EveryCommandEndsWhenTheTransportAnswers :
    Accepted .getProductInfo (before cfgV .getProductInfo (List.replicate 520 .noData)) ⟨.read, 0x8C, 0x00, 0x31, none⟩ ∧
    Answers (before cfgV .getProductInfo (List.replicate 520 .noData)) :=
  ⟨accepted_before _ rfl rfl, by decide, by decide, by decide +kernel⟩

theorem witness_EventsOfACommandComeInOrder :
    Accepted .home (ready 12 ack) ⟨.write, 1, 0, 1, some [0x20, 0x00]⟩ ∧ ∃ t, stateOf (exec .home (ready 12 ack)) = some t :=
  ⟨⟨rfl, rfl, by decide⟩, Option.isSome_iff_exists.mp (by decide +kernel)⟩

/-- An idle block that has never run a command meets the invariant. -/
theorem inv_ready (cfg : Config) (seq : Nibble) (len : Nat) (reads : List ReadAnswer) (inbox : List Input) :
    { readyIn cfg seq len reads with inbox := inbox }.Inv where
  bounded := ⟨⟨Nat.le_refl 0, Nat.zero_le _⟩, ⟨Nat.le_refl 0, Nat.zero_le _⟩, ⟨Nat.le_refl 0, Nat.zero_le _⟩,
    ⟨Nat.le_refl 0, Nat.zero_le _⟩, ⟨Nat.le_refl 0, Nat.zero_le _⟩, fun _ h => by cases h⟩
  phase := ⟨fun h => absurd rfl h, fun h => (by rcases h with h | h <;> cases h),
    fun h => (by rcases h with h | h | h | h <;> cases h), fun h => (by cases h), fun h => (by cases h)⟩
  results := ⟨fun _ => ⟨rfl, rfl⟩, fun h => (by cases h), ⟨fun h => (by cases h), fun h => (by cases h)⟩, fun h => (by cases h)⟩
  diagnostics := ⟨fun h => (by cases h), fun h => (by cases h)⟩

/-- The state of V-R3 h before the command. -/
def noWords : State :=
  ready 8 [0xA5, 0x3F, 0x01, 0x01, 0x00, 0x00, 0x8A, 0xBA]

theorem witness_OnlyTypedReadsFault : ∃ f, exec (.getStatus 0) noWords = .fault f := by
  have h : (match exec (.getStatus 0) noWords with | .fault _ => true | _ => false) = true := by decide +kernel
  split at h
  · exact ⟨_, by assumption⟩
  · cases h

/-- A step of a block with a command, a reset, a `SYNC_POSITION`, a frame, and nothing to take. -/
theorem step_answers (x : List Input) (hx : x ∈ [[.command .home], [.reset], [.syncPosition 5], [.frame ack], []]) :
    ∃ t, stateOf (step { ready 12 ack with inbox := x }) = some t := by
  simp only [List.mem_cons, List.not_mem_nil, or_false] at hx
  rcases hx with rfl | rfl | rfl | rfl | rfl <;> exact Option.isSome_iff_exists.mp (by decide +kernel)

theorem witness_ConfigurationIsNeverWritten : ∃ t, stateOf (step { ready 12 ack with inbox := [.command .home] }) = some t :=
  step_answers _ (by decide)

/-- An idle block with an input to take, whatever it is, and no second half due. -/
theorem acceptsCommand_ready (x : Input) :
    AcceptsCommand { ready 12 ack with inbox := [x] } ↔
      (∃ i, x = .command i ∧ i.isCommand = true ∧ i.wf = true) ∨ ∃ ticks, x = .syncPosition ticks := by
  simp [AcceptsCommand, ready, readyIn, State.resetWith]

/-- The clauses: a command, a `SYNC_POSITION`, its second half, a reset, a frame, and a second half that is not run. -/
theorem witness_SeqMovesOnlyByCommandsAndReset :
    ((∃ t, stateOf (step { ready 12 ack with inbox := [.command .home] }) = some t) ∧
      AcceptsCommand { ready 12 ack with inbox := [.command .home] }) ∧
    ((∃ t, stateOf (step { ready 12 ack with inbox := [.syncPosition 5] }) = some t) ∧
      AcceptsCommand { ready 12 ack with inbox := [.syncPosition 5] }) ∧
    ((∃ t, stateOf (step { ready 12 ack with syncPending := true, res := some .ok }) = some t) ∧
      AcceptsCommand { ready 12 ack with syncPending := true, res := some .ok }) ∧
    ((∃ t, stateOf (step { ready 12 ack with inbox := [.reset] }) = some t) ∧
      TakesReset { ready 12 ack with inbox := [.reset] }) ∧
    ((∃ t, stateOf (step { ready 12 ack with inbox := [.frame ack] }) = some t) ∧
      ¬ AcceptsCommand { ready 12 ack with inbox := [.frame ack] } ∧ ¬ TakesReset { ready 12 ack with inbox := [.frame ack] }) ∧
    ((∃ t, stateOf (step { ready 12 ack with syncPending := true, res := some .timeout }) = some t) ∧
      ¬ AcceptsCommand { ready 12 ack with syncPending := true, res := some .timeout } ∧
      ¬ TakesReset { ready 12 ack with syncPending := true, res := some .timeout }) := by
  refine ⟨⟨step_answers _ (by decide), (acceptsCommand_ready _).mpr (.inl ⟨_, rfl, rfl, rfl⟩)⟩,
    ⟨step_answers _ (by decide), (acceptsCommand_ready _).mpr (.inr ⟨_, rfl⟩)⟩,
    ⟨Option.isSome_iff_exists.mp (by decide +kernel), rfl, rfl⟩,
    ⟨step_answers _ (by decide), rfl, rfl⟩,
    ⟨step_answers _ (by decide), fun h => ?_, fun h => by cases h.2⟩,
    ⟨Option.isSome_iff_exists.mp (by decide +kernel), fun h => ?_, fun h => by cases h.1⟩⟩
  · rcases (acceptsCommand_ready _).mp h with ⟨_, h, _⟩ | ⟨_, h⟩ <;> cases h
  · have hr : (some ResultCode.timeout : Option ResultCode) = some .ok := h.2
    cases hr

theorem witness_BlockRaisesOnlyItsOwnCodes : ∃ t, stateOf (step { ready 12 ack with inbox := [.command .home] }) = some t :=
  step_answers _ (by decide)

theorem witness_TraceOnlyGrows : ∃ t, stateOf (step { ready 12 ack with inbox := [.command .home] }) = some t :=
  step_answers _ (by decide)

/-- A small step from phase `Purging`, and the step from `RxHeader` to `RxPayload`. -/
theorem witness_PhasesMoveInOrder :
    (∃ t, tick (accept ⟨.read, 0x12, 0x00, 2, none⟩ .ticks (ready 8 position)) = .next t) ∧
    ∃ t, tick { waiting with rxHdr := position.take 7, rxHCnt := 7, line := ⟨[], [], delivers [0xF8], []⟩ } = .next t ∧
      t.ph = .rxPayload := by
  constructor
  · exact ⟨_, rfl⟩
  · have h : (match tick { waiting with rxHdr := position.take 7, rxHCnt := 7, line := ⟨[], [], delivers [0xF8], []⟩ } with
        | .next t => decide (t.ph = .rxPayload) | _ => false) = true := by decide +kernel
    split at h
    · exact ⟨_, by assumption, of_decide_eq_true h⟩
    · cases h

/-- Each of the three primitives unanswered. -/
theorem witness_BlockIsStuckOnlyUnanswered :
    step { State.resetWith cfgA with ph := .purging } = .fault .transportStuck ∧
    step { State.resetWith cfgA with ph := .sending } = .fault .transportStuck ∧
    step { State.resetWith cfgA with ph := .rxHeader } = .fault .transportStuck :=
  ⟨rfl, rfl, rfl⟩

theorem witness_SyncPositionIsTwoCommands :
    (secondHalfDue { ready 14 ack with inbox := [.syncPosition 5, .reset] } = false ∧
      { ready 14 ack with inbox := [.syncPosition 5, .reset] }.inbox = .syncPosition 5 :: [.reset]) ∧
    ({ ready 12 ack with syncPending := true, res := some .ok }.syncPending = true ∧
      { ready 12 ack with syncPending := true, res := some .ok }.ph = .idle ∧
      { ready 12 ack with syncPending := true, res := some .ok }.res = some .ok) ∧
    ({ ready 12 ack with syncPending := true, res := some .timeout }.syncPending = true ∧
      { ready 12 ack with syncPending := true, res := some .timeout }.ph = .idle ∧
      { ready 12 ack with syncPending := true, res := some .timeout }.res ≠ some .ok) := by decide

/-- A response reaches a command in flight although a second half is still to come, which stays to come (R97, R216). -/
theorem test_syncPosition_firstHalf :
    ((stateOf (step { waiting with syncPending := true, inbox := [.frame position] })).map fun t => (t.ph, t.res, t.syncPending)) =
      some (.idle, some .ok, true) := by decide +kernel
/-- The second half of P3 of spec/95_test_vectors.md: `SYNC` with sequence number 15, refused by the device. -/
theorem test_syncPosition_secondHalf :
    outcome (step { readyIn cfgA 15 12 (delivers [0xA5, 0x3F, 0x3E, 0x02, 0x00, 0x00, 0x2B, 0xED]) with
        syncPending := true, res := some .ok }) =
      some (some .badResponse, none, 0, [[0xA5, 0x3F, 0x3E, 0x01, 0x00, 0x01, 0x62, 0x9C, 0x00, 0x01, 0x10, 0x21]]) := by
  decide +kernel

/-- A block that holds a result and both diagnostics: the end of a status read. -/
def ended : State :=
  (stateOf (exec (.getStatus 0) (ready 8 statusWord))).getD State.reset

theorem inv_ended : ended.Inv := by
  have ho : ended.op = some ⟨.read, 0, 0x02, 0x00, 1, [], false⟩ := by decide +kernel
  have hi : ended.ph = .idle := by decide +kernel
  refine ⟨⟨by decide +kernel, by decide +kernel, by decide +kernel, by decide +kernel, by decide +kernel, ?_⟩,
    ⟨fun h => absurd hi h, ?_, ?_, ?_, ?_⟩, ⟨by decide +kernel, by decide +kernel, by decide +kernel, by decide +kernel⟩,
    ⟨by decide +kernel, by decide +kernel⟩⟩
  · intro op h
    rw [ho] at h
    cases h
    decide
  all_goals simp [hi]

/-- A position read in flight, in phase `RxPayload`, whose header diagnostic is set. -/
def inPayload : State :=
  (stateOf (exec .getPositionTicks (ready 8 (position.take 10)))).getD State.reset

theorem inv_inPayload : inPayload.Inv := by
  have ho : inPayload.op = some ⟨.read, 0, 0x12, 0x00, 2, [], false⟩ := by decide +kernel
  refine ⟨⟨by decide +kernel, by decide +kernel, by decide +kernel, by decide +kernel, by decide +kernel, ?_⟩,
    ⟨by decide +kernel, fun h => absurd h (by decide +kernel), fun h => absurd h (by decide +kernel),
      fun h => absurd h (by decide +kernel), by decide +kernel⟩,
    ⟨by decide +kernel, by decide +kernel, by decide +kernel, by decide +kernel⟩, ⟨by decide +kernel, by decide +kernel⟩⟩
  intro op h
  rw [ho] at h
  cases h
  decide

/-- The end of a write: `Ok`, a frame, and no value. -/
def endedWrite : State :=
  (stateOf (exec .home (ready 12 ack))).getD State.reset

theorem inv_endedWrite : endedWrite.Inv := by
  have ho : endedWrite.op = some ⟨.write, 0, 0x01, 0x00, 1, [0x20, 0x00], true⟩ := by decide +kernel
  have hi : endedWrite.ph = .idle := by decide +kernel
  refine ⟨⟨by decide +kernel, by decide +kernel, by decide +kernel, by decide +kernel, by decide +kernel, ?_⟩,
    ⟨fun h => absurd hi h, ?_, ?_, ?_, ?_⟩, ⟨by decide +kernel, by decide +kernel, by decide +kernel, by decide +kernel⟩,
    ⟨by decide +kernel, by decide +kernel⟩⟩
  · intro op h
    rw [ho] at h
    cases h
    decide
  all_goals simp [hi]

/-- Each clause: a command in flight; no result at all; the end of a write, with a result and no value; every register held. -/
theorem witness_AbsentResultsCannotBeRead :
    (inPayload.Inv ∧ inPayload.ph ≠ .idle ∧ inPayload.hcrcValid = true) ∧
    ((ready 12 ack).Inv ∧ (ready 12 ack).ph = .idle ∧ (ready 12 ack).res ≠ some .ok ∧ (ready 12 ack).res = none ∧
      (ready 12 ack).rframe = none ∧ (ready 12 ack).hcrcValid = false ∧ (ready 12 ack).pcrcValid = false) ∧
    (endedWrite.Inv ∧ endedWrite.ph = .idle ∧ endedWrite.res = some .ok ∧ endedWrite.rval = none) ∧
    (ended.Inv ∧ ended.ph = .idle ∧ ended.res = some .ok ∧ ended.rval = some (.u16 0x8421) ∧ ended.rframe.isSome = true ∧
      ended.hcrcValid = true ∧ ended.pcrcValid = true) :=
  ⟨⟨inv_inPayload, by decide +kernel, by decide +kernel⟩, ⟨inv_ready _ _ _ _ [], rfl, by decide, rfl, rfl, rfl, rfl⟩,
    ⟨inv_endedWrite, by decide +kernel, by decide +kernel, by decide +kernel⟩, inv_ended, by decide +kernel, by decide +kernel, by decide +kernel, by decide +kernel, by decide +kernel, by decide +kernel⟩

theorem witness_SmallStepsGiveTheBigStep :
    Accepted .home (ready 12 ack) ⟨.write, 1, 0, 1, some [0x20, 0x00]⟩ ∧ (ready 12 ack).inbox = [] :=
  ⟨⟨rfl, rfl, by decide⟩, rfl⟩

theorem witness_ArrivedBytesAreReadOneAtATime :
    (Instr.rspErr hdrErr).isCommand = false ∧ (Instr.rspErr hdrErr).wf = true ∧
    (waiting.ph = .rxHeader ∨ waiting.ph = .rxPayload) ∧ waiting.inbox = [] := by decide +kernel

theorem witness_EveryStepKeepsTheInvariant :
    { ready 12 ack with inbox := [.reset] }.Inv ∧ ∃ t, step { ready 12 ack with inbox := [.reset] } = .next t :=
  ⟨inv_ready _ _ _ _ _, _, rfl⟩

/-- Two idle blocks that differ in every register an earlier command writes. -/
theorem witness_EarlierCommandsActOnlyThroughSeq :
    SameForCommands { ended with line := (readyIn cfgA 1 12 (delivers ack)).line, trace := [] }
      (readyIn cfgA 1 12 (delivers ack)) ∧
    { ended with line := (readyIn cfgA 1 12 (delivers ack)).line, trace := [] }.ph = .idle ∧
    Instr.home.isCommand = true ∧ Instr.home.wf = true ∧
    ∃ t, stateOf (exec .home { ended with line := (readyIn cfgA 1 12 (delivers ack)).line, trace := [] }) = some t :=
  ⟨⟨by decide +kernel, by decide +kernel, by decide +kernel, rfl, rfl, rfl⟩, by decide +kernel, rfl, rfl,
    Option.isSome_iff_exists.mp (by decide +kernel)⟩

/-- The premises of the acceptance criterion for a response that arrives whole. -/
def CriterionPremises (bs : List Byte) : Prop :=
  Accepted .home (before cfgA .home (delivers bs)) ⟨.write, 1, 0, 1, some [0x20, 0x00]⟩ ∧
  cfgA.verifyResponseCrc = false ∧ Ready (before cfgA .home (delivers bs)) 12 (delivers bs) ∧
  ∃ t, stateOf (exec .home (before cfgA .home (delivers bs))) = some t

theorem criterionPremises_of_state {bs : List Byte} (hs : (stateOf (exec .home (before cfgA .home (delivers bs)))).isSome = true) :
    CriterionPremises bs :=
  ⟨accepted_before _ rfl (by decide), rfl, ready_before (r := ⟨.write, 1, 0, 1, some [0x20, 0x00]⟩) _ (by decide),
    Option.isSome_iff_exists.mp hs⟩

/-- A response that is accepted. -/
theorem witness_AcceptedExactlyWhenEnoughBytesArrive : CriterionPremises ack :=
  criterionPremises_of_state (by decide +kernel)

/-- A response that is not. -/
theorem witness_AcceptedExactlyWhenEnoughBytesArrive_not : CriterionPremises (responseBlock hdrErr) :=
  criterionPremises_of_state (by decide +kernel)

/-- The source's own round trip (V-S3), and the largest payload. -/
theorem witness_DeliveredPayloadIsRecovered :
    (Accepted .home (before cfgV .home (delivers statusWord ++ [])) ⟨.write, 1, 0, 1, some [0x20, 0x00]⟩ ∧
      hdrOne.status = 1 ∧ hdrOne.wc ≠ 0 ∧ ([0x21, 0x84] : List Byte).length = 2 * hdrOne.wc.toNat ∧
      CrcsAccepted cfgV hdrOne [0x21, 0x84] (some 0xE4DB) ∧
      Ready (before cfgV .home (delivers statusWord ++ [])) 12
        (delivers (responseBlock hdrOne ++ [0x21, 0x84] ++ be16 0xE4DB) ++ [])) ∧
    (Accepted .home (before cfgA .home (delivers (responseBlock hdrMax ++ List.replicate 510 0x5A ++ be16 0xC198) ++ []))
        ⟨.write, 1, 0, 1, some [0x20, 0x00]⟩ ∧ hdrMax.status = 1 ∧ hdrMax.wc ≠ 0 ∧ (List.replicate 510 (0x5A : Byte)).length = 2 * hdrMax.wc.toNat ∧
      CrcsAccepted cfgA hdrMax (List.replicate 510 0x5A) (some 0xC198) ∧
      Ready (before cfgA .home (delivers (responseBlock hdrMax ++ List.replicate 510 0x5A ++ be16 0xC198) ++ [])) 12
        (delivers (responseBlock hdrMax ++ List.replicate 510 0x5A ++ be16 0xC198) ++ [])) :=
  ⟨⟨accepted_before _ rfl (by decide), rfl, by decide, rfl, crcs_one _,
    ready_before (r := ⟨.write, 1, 0, 1, some [0x20, 0x00]⟩) _ (by decide)⟩,
    accepted_before _ rfl (by decide), rfl, by decide, by decide +kernel, fun h => (by cases h),
    ready_before (r := ⟨.write, 1, 0, 1, some [0x20, 0x00]⟩) _ (by decide)⟩

/-- One word for a position read: the payload is delivered and too short for the command's result. -/
theorem witness_DeliveredPayloadIsRecovered_short :
    Accepted .getPositionTicks (before cfgV .getPositionTicks (delivers statusWord ++ [])) ⟨.read, 0x12, 0x00, 2, none⟩ ∧
    hdrOne.status = 1 ∧ hdrOne.wc ≠ 0 ∧ ([0x21, 0x84] : List Byte).length = 2 * hdrOne.wc.toNat ∧
    CrcsAccepted cfgV hdrOne [0x21, 0x84] (some 0xE4DB) ∧
    Ready (before cfgV .getPositionTicks (delivers statusWord ++ [])) 8
      (delivers (responseBlock hdrOne ++ [0x21, 0x84] ++ be16 0xE4DB) ++ []) ∧
    resultValue (returnOf .getPositionTicks) .le [0x21, 0x84] = none ∧
    resultValue (returnOf .home) .le [0x21, 0x84] ≠ none :=
  ⟨accepted_before _ rfl rfl, rfl, by decide, rfl, crcs_one _, ready_before (r := ⟨.read, 0x12, 0x00, 2, none⟩) _ rfl,
    by decide, by decide⟩

theorem witness_EchoedWriteIsAccepted :
    Accepted .home (before cfgV .home (delivers (encodeRequest 0 ⟨.write, 1, 0, 1, some [0x20, 0x00]⟩) ++ []))
      ⟨.write, 1, 0, 1, some [0x20, 0x00]⟩ ∧
    Ready (before cfgV .home (delivers (encodeRequest 0 ⟨.write, 1, 0, 1, some [0x20, 0x00]⟩) ++ [])) 12
      (delivers (encodeRequest 0 ⟨.write, 1, 0, 1, some [0x20, 0x00]⟩) ++ []) :=
  ⟨accepted_before _ rfl (by decide), ready_before (r := ⟨.write, 1, 0, 1, some [0x20, 0x00]⟩) _ (by decide)⟩

theorem witness_EnforcedCrcsAgreeOnSuccess :
    Accepted .getPositionTicks (before cfgV .getPositionTicks (delivers position)) ⟨.read, 0x12, 0x00, 2, none⟩ ∧
    cfgV.verifyResponseCrc = true ∧
    ∃ t, stateOf (exec .getPositionTicks (before cfgV .getPositionTicks (delivers position))) = some t ∧ t.res = some .ok := by
  refine ⟨accepted_before _ rfl rfl, rfl, ?_⟩
  have h : ((stateOf (exec .getPositionTicks (before cfgV .getPositionTicks (delivers position)))).any
      fun t => decide (t.res = some .ok)) = true := by decide +kernel
  rw [Option.any_eq_true] at h
  obtain ⟨t, h1, h2⟩ := h
  exact ⟨t, h1, of_decide_eq_true h2⟩

theorem witness_PurgeDiscardsWhatWasReceivedBefore :
    Accepted .home (ready 12 ack) ⟨.write, 1, 0, 1, some [0x20, 0x00]⟩ ∧ (ready 12 ack).line.purges.head? = some .ok :=
  ⟨⟨rfl, rfl, by decide⟩, rfl⟩

end Sys2Proof.Tests
end

section
/-! PROOF. The block one primitive at a time: what every small step leaves alone and what every read brings nearer, the transaction and the
parser as runs of small steps, and from them that no step takes back an event (R16, R218) and that a command run one primitive at a
time ends as the command run in one step (R16, R170). -/

namespace Sys2Proof.Machine

/-! ### What one byte leaves alone -/

/-- What is no register of the block's own work: the configuration, the inputs, the mark of `SYNC_POSITION`, the trace and the
transport. -/
structure Surroundings where
  cfg : Config
  inbox : List Input
  syncPending : Bool
  trace : List Event
  line : Line

def State.surroundings (s : State) : Surroundings :=
  ⟨s.cfg, s.inbox, s.syncPending, s.trace, s.line⟩

theorem returnValue_surroundings {ret : Return} {p : List Byte} {s t : State}
    (h : stateOf (returnValue ret p s) = some t) : t.surroundings = s.surroundings := by
  rcases returnValue_cases (o := returnValue ret p s) rfl with ⟨_, ho⟩ | ⟨v, ho⟩ | ho <;> rw [ho] at h
  · cases h; rfl
  · cases h; rfl
  · cases h; rfl

theorem finish_surroundings {s t : State} (h : stateOf (finish s) = some t) : t.surroundings = s.surroundings :=
  (returnValue_surroundings h).trans rfl

theorem headerDone_surroundings {s t : State} (h : stateOf (headerDone s) = some t) : t.surroundings = s.surroundings := by
  rcases headerDone_cases (o := headerDone s) rfl with ⟨_, _, ho⟩ | ⟨_, ⟨_, ho⟩ | ⟨_, _, ho⟩ | ⟨_, _, ho⟩⟩ <;>
    rw [ho] at h
  · cases h; rfl
  · cases h; rfl
  · exact (finish_surroundings h).trans rfl
  · cases h; rfl

theorem payloadDone_surroundings {s t : State} (h : stateOf (payloadDone s) = some t) : t.surroundings = s.surroundings := by
  rcases payloadDone_cases (o := payloadDone s) rfl with ⟨_, _, ho⟩ | ⟨_, ho⟩ <;> rw [ho] at h
  · cases h; rfl
  · exact (finish_surroundings h).trans rfl

theorem onHeaderByte_surroundings {b : Byte} {s t : State} (h : stateOf (onHeaderByte b s) = some t) :
    t.surroundings = s.surroundings := by
  rcases onHeaderByte_cases b s with ⟨_, ho⟩ | ⟨_, ho⟩ <;> rw [ho] at h
  · cases h; rfl
  · exact (headerDone_surroundings h).trans rfl

theorem onPayloadByte_surroundings {b : Byte} {s t : State} (h : stateOf (onPayloadByte b s) = some t) :
    t.surroundings = s.surroundings := by
  rcases onPayloadByte_cases b s with ⟨_, ho⟩ | ⟨_, _, ho⟩ | ⟨_, _, ho⟩ <;> rw [ho] at h
  · cases h; rfl
  · cases h; rfl
  · exact (payloadDone_surroundings h).trans rfl

theorem onByte_surroundings {b : Byte} {s t : State} (h : stateOf (onByte b s) = some t) :
    t.surroundings = s.surroundings := by
  cases hp : s.ph <;> simp only [onByte, hp] at h
  case rxHeader => exact onHeaderByte_surroundings h
  case rxPayload => exact onPayloadByte_surroundings h
  all_goals
    cases h
    rfl

/-- Behind its event and its answer a read leaves everything but the block's own registers. -/
theorem onRead_surroundings {a : ReadAnswer} {rest : List ReadAnswer} {s t : State}
    (h : stateOf (onRead a rest s) = some t) : t.surroundings = (tRead1 a rest s).surroundings := by
  cases a with
  | byte b => exact onByte_surroundings h
  | noData => cases h; rfl
  | ioError => cases h; rfl

/-- The answers behind the one that was read stay for the reads to come. -/
theorem onRead_rx {a : ReadAnswer} {rest : List ReadAnswer} {s t : State} (h : onRead a rest s = .next t) :
    t.line.rx = rest :=
  congrArg (fun x => x.line.rx) (onRead_surroundings (by rw [h]; rfl))

/-! ### What one small step leaves alone -/

/-- What the block's own work leaves of a state: the configuration, the inputs and the mark of `SYNC_POSITION` as they are, and the
trace as a beginning of the trace after it. -/
structure Follows (s t : State) : Prop where
  cfg : t.cfg = s.cfg
  inbox : t.inbox = s.inbox
  syncPending : t.syncPending = s.syncPending
  trace : s.trace <+: t.trace

theorem Follows.refl (s : State) : Follows s s :=
  ⟨rfl, rfl, rfl, List.prefix_rfl⟩

theorem Follows.trans {s t u : State} (h : Follows s t) (g : Follows t u) : Follows s u :=
  ⟨g.cfg.trans h.cfg, g.inbox.trans h.inbox, g.syncPending.trans h.syncPending, h.trace.trans g.trace⟩

/-- A primitive called and answered: one event behind the others (R16). -/
theorem Follows.of_event {s t : State} (e : Event) (hc : t.cfg = s.cfg) (hi : t.inbox = s.inbox)
    (hq : t.syncPending = s.syncPending) (ht : t.trace = s.trace ++ [e]) : Follows s t :=
  ⟨hc, hi, hq, ht ▸ List.prefix_append _ _⟩

theorem onRead_follows {a : ReadAnswer} {rest : List ReadAnswer} {s t : State} (h : stateOf (onRead a rest s) = some t) :
    Follows s t :=
  have k := onRead_surroundings h
  .of_event (.rx a) (congrArg (·.cfg) k) (congrArg (·.inbox) k) (congrArg (·.syncPending) k) (congrArg (·.trace) k)

theorem purgePhase_follows {s t : State} {o : Result} (ho : purgePhase s = some o) (h : stateOf o = some t) : Follows s t := by
  rcases purgePhase_cases ho with ⟨ps, _, rfl⟩ | ⟨ps, _, rfl⟩ <;> cases h
  · exact .of_event (.purge .ioError) rfl rfl rfl rfl
  · exact .of_event (.purge .ok) rfl rfl rfl rfl

theorem sendPhase_follows {s t : State} {o : Result} (ho : sendPhase s = some o) (h : stateOf o = some t) : Follows s t := by
  rcases sendPhase_cases ho with ⟨ws, _, rfl⟩ | ⟨a, ws, _, _, rfl⟩ <;> cases h
  · exact .of_event (.tx (txFrame s) (.written (txFrame s).length)) rfl rfl rfl rfl
  · exact .of_event (.tx (txFrame s) a) rfl rfl rfl rfl

theorem readPhase_follows {s t : State} {o : Result} (ho : readPhase s = some o) (h : stateOf o = some t) : Follows s t := by
  obtain ⟨a, rest, _, rfl⟩ := readPhase_cases ho
  exact onRead_follows h

/-- A phase that has no answer is the stuck fault, which leaves no state; one that has is the answer. -/
theorem stateOf_getD_stuck {p : Option Result} {t : State} (h : stateOf (p.getD (.fault .transportStuck)) = some t) :
    ∃ o, p = some o ∧ stateOf o = some t := by
  cases p with
  | none => cases h
  | some o => exact ⟨o, rfl, h⟩

theorem tick_follows {s t : State} (h : stateOf (tick s) = some t) : Follows s t := by
  cases hp : s.ph with
  | idle =>
    rw [tick_idle hp] at h
    cases h
    exact .refl s
  | purging =>
    rw [tick_purging hp] at h
    obtain ⟨o, ho, h⟩ := stateOf_getD_stuck h
    exact purgePhase_follows ho h
  | sending =>
    rw [tick_sending hp] at h
    obtain ⟨o, ho, h⟩ := stateOf_getD_stuck h
    exact sendPhase_follows ho h
  | flushing =>
    rw [tick_flushing hp] at h
    cases h
    exact .of_event .flush rfl rfl rfl rfl
  | rxHeader =>
    rw [tick_receiving (.inl hp)] at h
    obtain ⟨o, ho, h⟩ := stateOf_getD_stuck h
    exact readPhase_follows ho h
  | rxPayload =>
    rw [tick_receiving (.inr hp)] at h
    obtain ⟨o, ho, h⟩ := stateOf_getD_stuck h
    exact readPhase_follows ho h

/-! ### Runs of small steps -/

/-- `k` small steps of the block from a state in which a command is in flight, none of them taken by an idle block, give the outcome: the
state reached, or where the last of them stops without a next state. -/
inductive Ticks : Nat → State → Result → Prop where
  | zero (s : State) : Ticks 0 s (.next s)
  | stop {s : State} {o : Result} (hp : s.ph ≠ .idle) (h : tick s = o) (hn : ∀ t, o ≠ .next t) : Ticks 1 s o
  | more {k : Nat} {s t : State} {o : Result} (hp : s.ph ≠ .idle) (h : tick s = .next t) (ht : Ticks k t o) :
      Ticks (k + 1) s o

theorem Ticks.one {s : State} {o : Result} (hp : s.ph ≠ .idle) (h : tick s = o) : Ticks 1 s o := by
  cases o with
  | next t => exact .more hp h (.zero t)
  | fault f => exact .stop hp h (by simp)
  | refused r => exact .stop hp h (by simp)

/-- What every small step leaves alone, a run of them leaves alone. -/
theorem Ticks.follows {k : Nat} {s t : State} {o : Result} (h : Ticks k s o) (ho : stateOf o = some t) : Follows s t := by
  induction h with
  | zero s => cases ho; exact .refl _
  | stop hp h hn => exact tick_follows (h ▸ ho)
  | more hp h ht ih => exact (tick_follows (by rw [h]; rfl)).trans (ih ho)

/-- With no other input at hand, the machine's steps while a command is in flight are the block's small steps. -/
theorem step_inFlight {s : State} (hp : s.ph ≠ .idle) (hi : s.inbox = []) : step s = tick s :=
  step_tick (not_secondHalfDue_iff.mpr fun _ => hp) hi

theorem run_next {k : Nat} {s t : State} (h : step s = .next t) :
    Host.Core.run Sys2Proof.core (k + 1) s = Host.Core.run Sys2Proof.core k t := by
  simp [Host.Core.run, Sys2Proof.core, h]

theorem run_stop {s : State} {o : Result} (h : step s = o) (hn : ∀ t, o ≠ .next t) :
    Host.Core.run Sys2Proof.core 1 s = o := by
  cases o with
  | next t => exact absurd rfl (hn t)
  | fault f => simp [Host.Core.run, Sys2Proof.core, h]
  | refused r => simp [Host.Core.run, Sys2Proof.core, h]

/-- A run of small steps is a run of the machine, where no other input is at hand (log entry 13). -/
theorem Ticks.run {k : Nat} {s : State} {o : Result} (h : Ticks k s o) (hi : s.inbox = []) :
    Host.Core.run Sys2Proof.core k s = o := by
  induction h with
  | zero s => rfl
  | @stop s o hp h hn =>
    exact run_stop ((step_inFlight hp hi).trans h) hn
  | @more k s t o hp h ht ih =>
    rw [run_next ((step_inFlight hp hi).trans h)]
    exact ih ((tick_follows (by rw [h]; rfl)).inbox.trans hi)

/-! ### How many reads a parser can still ask for -/

/-- The most reads a parser can still take before its command ends (R138, R143, R144). A header byte still to come counts 1, and the
eighth of them is followed by at most 510 payload bytes and two CRC bytes. -/
def readsLeft (s : State) : Nat :=
  match s.ph with
  | .rxHeader => (7 - s.rxHCnt) + 513
  | .rxPayload => (s.rxPLen - s.rxPCnt) + (1 - s.rxCCnt) + 1
  | .idle => 0
  | .purging => 0
  | .sending => 0
  | .flushing => 0

theorem readsLeft_header {s : State} (h : s.ph = .rxHeader) : readsLeft s = (7 - s.rxHCnt) + 513 := by
  simp [readsLeft, h]

theorem readsLeft_payload {s : State} (h : s.ph = .rxPayload) :
    readsLeft s = (s.rxPLen - s.rxPCnt) + (1 - s.rxCCnt) + 1 := by
  simp [readsLeft, h]

theorem readsLeft_pos {s : State} (h : s.ph = .rxHeader ∨ s.ph = .rxPayload) : 0 < readsLeft s := by
  rcases h with h | h
  · rw [readsLeft_header h]; omega
  · rw [readsLeft_payload h]; omega

/-- A parser that has just been started asks for no more than the longest response (R85). -/
theorem readsLeft_flushPhase (s : State) : readsLeft (flushPhase s) = 520 := rfl

/-- What a byte that ends nothing does: the parser still asks for bytes, and for fewer of them. -/
structure Advances (s t : State) : Prop where
  receiving : t.ph = .rxHeader ∨ t.ph = .rxPayload
  fewer : readsLeft t < readsLeft s

/-- The header block is followed by a payload that is announced in one byte, or by nothing. -/
theorem headerDone_expects {s t : State} (h : headerDone s = .next t) (ht : t.ph ≠ .idle) :
    t.ph = .rxPayload ∧ readsLeft t ≤ 512 := by
  rcases headerDone_cases h with ⟨_, _, ho⟩ | ⟨_, ⟨_, ho⟩ | ⟨_, _, ho⟩ | ⟨_, _, ho⟩⟩
  · cases ho; exact absurd rfl ht
  · cases ho; exact absurd rfl ht
  · exact absurd (finish_idle ho.symm) ht
  · cases ho
    refine ⟨rfl, ?_⟩
    have hw : (hdrByte s 5).toNat < 256 := (hdrByte s 5).isLt
    rw [readsLeft_payload rfl]
    simp only
    omega

theorem onHeaderByte_advances {b : Byte} {s t : State} (hp : s.ph = .rxHeader) (h : onHeaderByte b s = .next t)
    (ht : t.ph ≠ .idle) : Advances s t := by
  rcases onHeaderByte_cases b s with ⟨hc, ho⟩ | ⟨hc, ho⟩ <;> rw [ho] at h
  · cases h
    refine ⟨.inl hp, ?_⟩
    simp only [readsLeft_header, hp]
    omega
  · obtain ⟨hpay, hle⟩ := headerDone_expects h ht
    refine ⟨.inr hpay, ?_⟩
    rw [readsLeft_header hp]
    omega

theorem onPayloadByte_advances {b : Byte} {s t : State} (hp : s.ph = .rxPayload) (h : onPayloadByte b s = .next t)
    (ht : t.ph ≠ .idle) : Advances s t := by
  rcases onPayloadByte_cases b s with ⟨hc, ho⟩ | ⟨_, hc, ho⟩ | ⟨_, _, ho⟩ <;> rw [ho] at h
  · cases h
    refine ⟨.inr hp, ?_⟩
    simp only [readsLeft_payload, hp]
    omega
  · cases h
    refine ⟨.inr hp, ?_⟩
    simp only [readsLeft_payload, hp]
    omega
  · exact absurd (payloadDone_idle h) ht

theorem onRead_advances {a : ReadAnswer} {rest : List ReadAnswer} {s t : State} (hp : s.ph = .rxHeader ∨ s.ph = .rxPayload)
    (h : onRead a rest s = .next t) (ht : t.ph ≠ .idle) : Advances s t := by
  cases a with
  | noData => cases h; exact absurd rfl ht
  | ioError => cases h; exact absurd rfl ht
  | byte b =>
    rcases hp with hp | hp
    · have ho : onHeaderByte b (tRead1 (.byte b) rest s) = .next t := by simpa only [onRead, onByte, tRead1_ph, hp] using h
      obtain ⟨hr, hf⟩ := onHeaderByte_advances (s := tRead1 (.byte b) rest s) hp ho ht
      exact ⟨hr, hf⟩
    · have ho : onPayloadByte b (tRead1 (.byte b) rest s) = .next t := by simpa only [onRead, onByte, tRead1_ph, hp] using h
      obtain ⟨hr, hf⟩ := onPayloadByte_advances (s := tRead1 (.byte b) rest s) hp ho ht
      exact ⟨hr, hf⟩

/-! ### The parser and the transaction as runs of small steps -/

theorem tick_read {a : ReadAnswer} {rest : List ReadAnswer} {s : State} (hp : s.ph = .rxHeader ∨ s.ph = .rxPayload)
    (hx : s.line.rx = a :: rest) : tick s = onRead a rest s := by
  simp [tick_receiving hp, readPhase, hx]

/-- The parser over the answers at hand is a run of small steps: one for each answer it takes, and no more than it can ask for. -/
theorem receive_ticks {as : List ReadAnswer} {s : State} (hp : s.ph = .rxHeader ∨ s.ph = .rxPayload) (hx : s.line.rx = as) :
    ∃ k, k ≤ as.length ∧ k ≤ readsLeft s ∧ Ticks k s (receive as s) := by
  induction as generalizing s with
  | nil => exact ⟨0, le_rfl, Nat.zero_le _, .zero s⟩
  | cons a rest ih =>
    have hn : s.ph ≠ .idle := by rcases hp with h | h <;> simp [h]
    have ht : tick s = onRead a rest s := tick_read hp hx
    have ends : ∀ o, onRead a rest s = o → Ticks 1 s o := fun o ho => .one hn (ht.trans ho)
    have one_le : 1 ≤ (a :: rest).length ∧ 1 ≤ readsLeft s := ⟨by simp, readsLeft_pos hp⟩
    rw [receive_cons]
    cases ho : onRead a rest s with
    | fault f => exact ⟨1, one_le.1, one_le.2, ends _ ho⟩
    | refused r => exact ⟨1, one_le.1, one_le.2, ends _ ho⟩
    | next t =>
      by_cases hi : t.ph = .idle
      · simp only [if_pos hi]
        exact ⟨1, one_le.1, one_le.2, ends _ ho⟩
      · simp only [if_neg hi]
        obtain ⟨hr, hf⟩ := onRead_advances hp ho hi
        obtain ⟨k, hk, hm, hrun⟩ := ih hr (onRead_rx ho)
        exact ⟨k + 1, by simpa using hk, by omega, .more hn (ht.trans ho) hrun⟩

theorem flushing_ticks {s : State} (hp : s.ph = .flushing) :
    ∃ k, k ≤ 521 ∧ Ticks k s (receive (flushPhase s).line.rx (flushPhase s)) := by
  obtain ⟨k, _, hk, hrun⟩ := receive_ticks (s := flushPhase s) (.inl rfl) rfl
  rw [readsLeft_flushPhase] at hk
  exact ⟨k + 1, by omega, .more (by simp [hp]) (tick_flushing hp) hrun⟩

theorem sendAndReceive_ticks {s : State} (hp : s.ph = .sending) : ∃ k, k ≤ 522 ∧ Ticks k s (sendAndReceive s) := by
  have hn : s.ph ≠ .idle := by simp [hp]
  cases ho : sendPhase s with
  | none => exact ⟨0, by omega, by simpa [sendAndReceive, ho] using Ticks.zero s⟩
  | some o =>
    have ht : tick s = o := by simp [tick_sending hp, ho]
    rcases sendPhase_cases ho with ⟨ws, _, rfl⟩ | ⟨a, ws, _, _, rfl⟩
    · obtain ⟨k, hk, hrun⟩ := flushing_ticks (s := { record (.tx (txFrame s) (.written (txFrame s).length))
        { s with line := { s.line with writes := ws } } with ph := .flushing }) rfl
      exact ⟨k + 1, by omega, .more hn ht (by simpa [sendAndReceive, ho] using hrun)⟩
    · exact ⟨1, by omega, by simpa [sendAndReceive, ho] using Ticks.one hn ht⟩

/-- The transaction is a run of small steps: one purge, one write, one flush and at most 520 reads (R195). -/
theorem transact_ticks {s : State} (hp : s.ph = .purging) : ∃ k, k ≤ 523 ∧ Ticks k s (transact s) := by
  have hn : s.ph ≠ .idle := by simp [hp]
  cases ho : purgePhase s with
  | none => exact ⟨0, by omega, by simpa [transact, ho] using Ticks.zero s⟩
  | some o =>
    have ht : tick s = o := by simp [tick_purging hp, ho]
    rcases purgePhase_cases ho with ⟨ps, _, rfl⟩ | ⟨ps, _, rfl⟩
    · exact ⟨1, by omega, by simpa [transact, ho] using Ticks.one hn ht⟩
    · obtain ⟨k, hk, hrun⟩ := sendAndReceive_ticks (s := { loadRequest (operands s).seq (operands s).request (record (.purge .ok)
        { s with line := { s.line with purges := ps, rx := s.line.later.headD [], later := s.line.later.tail } })
          with ph := .sending }) rfl
      exact ⟨k + 1, by omega, .more hn ht (by simpa [transact, ho] using hrun)⟩

/-- Settles O50: acceptance leads into phase `Purging`, and the transaction from there is a run of at most 523 small steps. -/
theorem smallStepsGiveTheBigStep : Obligations.SmallStepsGiveTheBigStep := by
  intro i s r ha hi
  obtain ⟨k, hk, hrun⟩ := transact_ticks (accept_ph r (returnOf i) s)
  refine ⟨k, hk, ?_⟩
  rw [exec_command ha.wf ha.request, xact_idle ha.idle]
  exact hrun.run hi

/-! ### What an instruction and a step leave alone -/

theorem accept_follows (r : Request) (ret : Return) (s : State) : Follows s (accept r ret s) :=
  ⟨rfl, rfl, rfl, List.prefix_rfl⟩

theorem receiveSide_follows (s : State) (rx : List ReadAnswer) : Follows s { s with line := { s.line with rx := rx } } :=
  ⟨rfl, rfl, rfl, List.prefix_rfl⟩

theorem xact_follows {r : Request} {ret : Return} {s t : State} (h : stateOf (xact r ret s) = some t) : Follows s t := by
  by_cases hi : s.ph = .idle
  · rw [xact_idle hi] at h
    obtain ⟨k, _, hrun⟩ := transact_ticks (accept_ph r ret s)
    exact (accept_follows r ret s).trans (hrun.follows h)
  · rw [xact_busy hi] at h
    cases h

theorem arrive_follows {bs : List Byte} {s t : State} (h : stateOf (arrive bs s) = some t) : Follows s t := by
  by_cases hp : s.ph = .rxHeader ∨ s.ph = .rxPayload
  · rw [arrive_receiving hp] at h
    obtain ⟨k, _, _, hrun⟩ := receive_ticks
      (s := { s with line := { s.line with rx := s.line.rx ++ delivers bs } }) hp rfl
    exact (receiveSide_follows s _).trans (hrun.follows h)
  · obtain ⟨h1, h2⟩ := not_or.mp hp
    rw [arrive_waiting h1 h2] at h
    cases h
    exact receiveSide_follows s _

theorem isCommand_request {i : Instr} (cfg : Config) (h : i.isCommand = true) : ∃ r, i.request cfg = some r := by
  cases i
  case rspOk => cases h
  case rspErr => cases h
  all_goals exact ⟨_, rfl⟩

theorem exec_illFormed {i : Instr} {s : State} (h : i.wf = false) : exec i s = .refused .illFormed := by
  cases i
  case writeReg idx off wc words =>
    have hw : wordsMatch wc words = false := h
    simp [exec, execWriteReg, writeRegister, hw]
  case rspOk => simp [exec, execRspOk, h]
  case rspErr => simp [exec, execRspErr, h]
  all_goals cases h

/-- Everything an instruction can be: a transaction, the arrival of bytes, or refused for its operands (R176, R192, R216). -/
theorem exec_cases (i : Instr) (s : State) :
    (∃ r, exec i s = xact r (returnOf i) s) ∨ (∃ bs, exec i s = arrive bs s) ∨ exec i s = .refused .illFormed := by
  cases hw : i.wf with
  | false => exact .inr (.inr (exec_illFormed hw))
  | true =>
    cases hc : i.isCommand with
    | true =>
      obtain ⟨r, hr⟩ := isCommand_request s.cfg hc
      exact .inl ⟨r, exec_command hw hr⟩
    | false => exact .inr (.inl ⟨_, exec_response (seq := 0) hw hc⟩)

theorem exec_follows {i : Instr} {s t : State} (h : stateOf (exec i s) = some t) : Follows s t := by
  rcases exec_cases i s with ⟨r, ho⟩ | ⟨bs, ho⟩ | ho <;> rw [ho] at h
  · exact xact_follows h
  · exact arrive_follows h
  · cases h

/-- Settles O45: an instruction, an arrival and a small step each add to the trace they find, and taking an input, a reset or giving up a
second half of `SYNC_POSITION` does not touch it. -/
theorem traceOnlyGrows : Obligations.TraceOnlyGrows := by
  intro s t h
  rcases step_cases s with ⟨i, rest, _, ho⟩ | ⟨bs, i, tail, rest, _, _, ho⟩ | ⟨bs, rest, _, ho⟩ | ⟨rest, _, ho⟩ |
    ⟨ticks, rest, _, ho⟩ | ⟨_, _, ho⟩ | ⟨_, _, ho⟩ | ⟨_, ho⟩ <;> rw [ho] at h
  · exact (exec_follows h).trace
  · exact (exec_follows h).trace
  · exact (arrive_follows h).trace
  · cases h; exact List.prefix_rfl
  · exact (exec_follows h).trace
  · exact (exec_follows h).trace
  · cases h; exact List.prefix_rfl
  · exact (tick_follows h).trace

end Sys2Proof.Machine
end

section
/-! PROOF. What one small step can do to the registers, said once as two inversions (`Reads` for one answer of `T.read1`, `SmallStep` for
one primitive), and from them the facts every step keeps: the configuration (R30), the sequence counter (R29), the moves of the phase
register (R27), and the invariant of the block (R22 to R28, R31). -/

namespace Sys2Proof.Machine

/-! ### One answer of `T.read1` -/

/-- One more header byte stored (R138). -/
def storeHeaderByte (b : Byte) (s : State) : State :=
  { s with rxHdr := putAt s.rxHdr s.rxHCnt b, rxHCnt := s.rxHCnt + 1 }

/-- One more payload byte stored (R143). -/
def storePayloadByte (b : Byte) (s : State) : State :=
  { s with rxPay := putAt s.rxPay s.rxPCnt b, rxPCnt := s.rxPCnt + 1 }

/-- One more payload CRC byte stored (R144). -/
def storeCrcByte (b : Byte) (s : State) : State :=
  { s with rxPCrc := putAt s.rxPCrc s.rxCCnt b, rxCCnt := s.rxCCnt + 1 }

/-- The parser has succeeded (R146), and the command's rule leaves `v` in `RVAL`. -/
def succeed (v : Option Value) (s : State) : State :=
  { s with rframe := some (decodedFrame s), res := some .ok, rval := v, ph := .idle }

/-- The states one answer of `T.read1` can leave a parser in, from the state behind the call (R138 to R146): a next state and the state
of a short payload alike. -/
inductive Reads (s : State) : State → Prop where
  | failed {e : ResultCode} (he : e = .timeout ∨ e = .transportError) : Reads s (raise e s)
  | headerByte (b : Byte) (hp : s.ph = .rxHeader) (hc : s.rxHCnt + 1 < 8) : Reads s (storeHeaderByte b s)
  | headerMismatch (b : Byte) (hp : s.ph = .rxHeader) (hv : s.cfg.verifyResponseCrc = true) :
      Reads s (raise .crcMismatch (setHeaderCrcFlags (storeHeaderByte b s)))
  | badStatus (b : Byte) (hp : s.ph = .rxHeader) :
      Reads s (raise .badResponse (setHeaderCrcFlags (storeHeaderByte b s)))
  | noPayload (b : Byte) (v : Option Value) (hp : s.ph = .rxHeader) :
      Reads s (succeed v { setHeaderCrcFlags (storeHeaderByte b s) with rxPLen := 0 })
  | payloadExpected (b : Byte) (hp : s.ph = .rxHeader) (hc : 8 ≤ s.rxHCnt + 1)
      (hs : hdrByte (storeHeaderByte b s) 3 = constants.statusOk) (hw : (hdrByte (storeHeaderByte b s) 5).toNat ≠ 0) :
      Reads s { setHeaderCrcFlags (storeHeaderByte b s) with
        rxPLen := 2 * (hdrByte (storeHeaderByte b s) 5).toNat, ph := .rxPayload }
  | payloadByte (b : Byte) (hp : s.ph = .rxPayload) (hl : s.rxPCnt < s.rxPLen) : Reads s (storePayloadByte b s)
  | crcByte (b : Byte) (hp : s.ph = .rxPayload) (hl : s.rxPLen ≤ s.rxPCnt) (hc : s.rxCCnt + 1 < 2) :
      Reads s (storeCrcByte b s)
  | payloadMismatch (b : Byte) (hp : s.ph = .rxPayload) (hv : s.cfg.verifyResponseCrc = true) :
      Reads s (raise .crcMismatch (setPayloadCrcFlags (storeCrcByte b s)))
  | payloadAccepted (b : Byte) (v : Option Value) (hp : s.ph = .rxPayload) :
      Reads s (succeed v (setPayloadCrcFlags (storeCrcByte b s)))

/-- Whether the result is a value, none, or the fault of a short payload, success leaves the same registers but for `RVAL`. -/
theorem finish_succeeds {s t : State} (h : stateOf (finish s) = some t) : ∃ v, t = succeed v s := by
  rcases finish_cases (o := finish s) rfl with ⟨_, ho⟩ | ⟨v, ho⟩ | ho <;> rw [ho] at h <;> cases h
  · exact ⟨s.rval, rfl⟩
  · exact ⟨some v, rfl⟩
  · exact ⟨s.rval, rfl⟩

theorem onHeaderByte_reads {b : Byte} {s t : State} (hp : s.ph = .rxHeader) (h : stateOf (onHeaderByte b s) = some t) :
    Reads s t := by
  rcases onHeaderByte_cases b s with ⟨hc, ho⟩ | ⟨hc, ho⟩ <;> rw [ho] at h
  · cases h
    exact .headerByte b hp hc
  · change stateOf (headerDone (storeHeaderByte b s)) = some t at h
    rcases headerDone_cases (o := headerDone (storeHeaderByte b s)) rfl with
      ⟨hv, _, hd⟩ | ⟨_, ⟨_, hd⟩ | ⟨_, _, hd⟩ | ⟨hs, hw, hd⟩⟩ <;> rw [hd] at h
    · cases h
      exact .headerMismatch b hp hv
    · cases h
      exact .badStatus b hp
    · obtain ⟨v, rfl⟩ := finish_succeeds h
      exact .noPayload b v hp
    · cases h
      exact .payloadExpected b hp hc hs hw

theorem onPayloadByte_reads {b : Byte} {s t : State} (hp : s.ph = .rxPayload) (h : stateOf (onPayloadByte b s) = some t) :
    Reads s t := by
  rcases onPayloadByte_cases b s with ⟨hl, ho⟩ | ⟨hl, hc, ho⟩ | ⟨_, _, ho⟩ <;> rw [ho] at h
  · cases h
    exact .payloadByte b hp hl
  · cases h
    exact .crcByte b hp hl hc
  · change stateOf (payloadDone (storeCrcByte b s)) = some t at h
    rcases payloadDone_cases (o := payloadDone (storeCrcByte b s)) rfl with ⟨hv, _, hd⟩ | ⟨_, hd⟩ <;> rw [hd] at h
    · cases h
      exact .payloadMismatch b hp hv
    · obtain ⟨v, rfl⟩ := finish_succeeds h
      exact .payloadAccepted b v hp

theorem onRead_reads {a : ReadAnswer} {rest : List ReadAnswer} {s t : State} (hp : s.ph = .rxHeader ∨ s.ph = .rxPayload)
    (h : stateOf (onRead a rest s) = some t) : Reads (tRead1 a rest s) t := by
  cases a with
  | noData => cases h; exact .failed (.inl rfl)
  | ioError => cases h; exact .failed (.inr rfl)
  | byte b =>
    rcases hp with hp | hp
    · exact onHeaderByte_reads (b := b) hp (by simpa only [onRead, onByte, tRead1_ph, hp] using h)
    · exact onPayloadByte_reads (b := b) hp (by simpa only [onRead, onByte, tRead1_ph, hp] using h)

/-! ### One primitive -/

/-- The states a small step can leave the block in (R27, R170). -/
inductive SmallStep (s : State) : State → Prop where
  | idle (hp : s.ph = .idle) : SmallStep s s
  | purgeFailed (hp : s.ph = .purging) (ps : List PurgeAnswer) :
      SmallStep s (raise .transportError (record (.purge .ioError) { s with line := { s.line with purges := ps } }))
  | purged (hp : s.ph = .purging) (line : Line) :
      SmallStep s { loadRequest (operands s).seq (operands s).request (record (.purge .ok) { s with line := line })
        with ph := .sending }
  | sent (hp : s.ph = .sending) (e : Event) (line : Line) :
      SmallStep s { record e { s with line := line } with ph := .flushing }
  | sendFailed (hp : s.ph = .sending) (e : Event) (line : Line) :
      SmallStep s (raise .transportError (record e { s with line := line }))
  | flushed (hp : s.ph = .flushing) : SmallStep s (flushPhase s)
  | read {t : State} (hp : s.ph = .rxHeader ∨ s.ph = .rxPayload) (a : ReadAnswer) (rest : List ReadAnswer)
      (h : Reads (tRead1 a rest s) t) : SmallStep s t

theorem tick_receives {s t : State} (hp : s.ph = .rxHeader ∨ s.ph = .rxPayload) (h : stateOf (tick s) = some t) :
    SmallStep s t := by
  rw [tick_receiving hp] at h
  obtain ⟨o, ho, h⟩ := stateOf_getD_stuck h
  obtain ⟨a, rest, _, rfl⟩ := readPhase_cases ho
  exact .read hp a rest (onRead_reads hp h)

theorem tick_smallStep {s t : State} (h : stateOf (tick s) = some t) : SmallStep s t := by
  cases hp : s.ph with
  | idle =>
    rw [tick_idle hp] at h
    cases h
    exact .idle hp
  | purging =>
    rw [tick_purging hp] at h
    obtain ⟨o, ho, h⟩ := stateOf_getD_stuck h
    rcases purgePhase_cases ho with ⟨ps, _, rfl⟩ | ⟨ps, _, rfl⟩ <;> cases h
    · exact .purgeFailed hp ps
    · exact .purged hp _
  | sending =>
    rw [tick_sending hp] at h
    obtain ⟨o, ho, h⟩ := stateOf_getD_stuck h
    rcases sendPhase_cases ho with ⟨ws, _, rfl⟩ | ⟨a, ws, _, _, rfl⟩ <;> cases h
    · exact .sent hp _ _
    · exact .sendFailed hp _ _
  | flushing =>
    rw [tick_flushing hp] at h
    cases h
    exact .flushed hp
  | rxHeader => exact tick_receives (.inl hp) h
  | rxPayload => exact tick_receives (.inr hp) h

/-- A fact that every small step keeps, a run of small steps keeps. -/
theorem Ticks.keeps {P : State → Prop} (keep : ∀ s t, P s → SmallStep s t → P t) {k : Nat} {s t : State} {o : Result}
    (h : Ticks k s o) (hs : P s) (ho : stateOf o = some t) : P t := by
  induction h with
  | zero s => cases ho; exact hs
  | stop hp h hn => exact keep _ _ hs (tick_smallStep (h ▸ ho))
  | more hp h ht ih => exact ih (keep _ _ hs (tick_smallStep (by rw [h]; rfl))) ho

/-- What every small step keeps, a transaction keeps from where it is accepted. -/
theorem xact_keeps {P : State → Prop} (keep : ∀ s t, P s → SmallStep s t → P t) {r : Request} {ret : Return} {s t : State}
    (h : stateOf (xact r ret s) = some t) (hs : s.ph = .idle → P (accept r ret s)) : P t := by
  by_cases hi : s.ph = .idle
  · rw [xact_idle hi] at h
    obtain ⟨k, _, hrun⟩ := transact_ticks (accept_ph r ret s)
    exact hrun.keeps keep (hs hi) h
  · rw [xact_busy hi] at h
    cases h

/-- What every small step keeps, and the receive side has no part in, the arrival of bytes keeps. -/
theorem arrive_keeps {P : State → Prop} (keep : ∀ s t, P s → SmallStep s t → P t) {bs : List Byte} {s t : State}
    (h : stateOf (arrive bs s) = some t) (hs : ∀ rx, P { s with line := { s.line with rx := rx } }) : P t := by
  by_cases hp : s.ph = .rxHeader ∨ s.ph = .rxPayload
  · rw [arrive_receiving hp] at h
    obtain ⟨k, _, _, hrun⟩ := receive_ticks
      (s := { s with line := { s.line with rx := s.line.rx ++ delivers bs } }) hp rfl
    exact hrun.keeps keep (hs _) h
  · obtain ⟨h1, h2⟩ := not_or.mp hp
    rw [arrive_waiting h1 h2] at h
    cases h
    exact hs _

/-! ### The configuration (R30) -/

/-- Settles O42: an instruction, an arrival and a small step keep the configuration (`Follows`), and a reset puts back the one it found. -/
theorem configurationIsNeverWritten : Obligations.ConfigurationIsNeverWritten := by
  intro s t h
  rcases step_cases s with ⟨i, rest, _, ho⟩ | ⟨bs, i, tail, rest, _, _, ho⟩ | ⟨bs, rest, _, ho⟩ | ⟨rest, _, ho⟩ |
    ⟨ticks, rest, _, ho⟩ | ⟨_, _, ho⟩ | ⟨_, _, ho⟩ | ⟨_, ho⟩ <;> rw [ho] at h
  · exact (exec_follows h).cfg
  · exact (exec_follows h).cfg
  · exact (arrive_follows h).cfg
  · cases h; rfl
  · exact (exec_follows h).cfg
  · exact (exec_follows h).cfg
  · cases h; rfl
  · exact (tick_follows h).cfg

/-! ### The phase register (R27) -/

theorem Reads.phase {s t : State} (h : Reads s t) (hp : s.ph = .rxHeader ∨ s.ph = .rxPayload) :
    (s.ph, t.ph) ∈ phaseMoves ∧ (s.ph = .rxHeader → t.ph = .rxPayload → t.rxPLen ≠ 0) := by
  cases h with
  | failed he =>
    exact ⟨by rcases hp with hp | hp <;> simp [hp, phaseMoves], fun _ h => nomatch h⟩
  | headerByte b hp => exact ⟨by simp [storeHeaderByte, hp, phaseMoves], fun _ h => by simp [storeHeaderByte, hp] at h⟩
  | headerMismatch b hp => exact ⟨by simp [hp, phaseMoves], fun _ h => nomatch h⟩
  | badStatus b hp => exact ⟨by simp [hp, phaseMoves], fun _ h => nomatch h⟩
  | noPayload b v hp => exact ⟨by simp [hp, succeed, phaseMoves], fun _ h => nomatch h⟩
  | payloadExpected b hp hc hs hw => exact ⟨by simp [hp, phaseMoves], fun _ _ => by simp only; omega⟩
  | payloadByte b hp => exact ⟨by simp [storePayloadByte, hp, phaseMoves], fun h => by simp [hp] at h⟩
  | crcByte b hp => exact ⟨by simp [storeCrcByte, hp, phaseMoves], fun h => by simp [hp] at h⟩
  | payloadMismatch b hp => exact ⟨by simp [hp, phaseMoves], fun _ h => nomatch h⟩
  | payloadAccepted b v hp => exact ⟨by simp [hp, succeed, phaseMoves], fun _ h => nomatch h⟩

/-- Settles O46: each primitive moves along its own moves, and only the read of an eighth header byte leads to `RxPayload`. -/
theorem phasesMoveInOrder : Obligations.PhasesMoveInOrder := by
  intro s t h
  cases tick_smallStep (show stateOf (tick s) = some t by rw [h]; rfl) with
  | idle hp => exact ⟨by simp [hp, phaseMoves], fun h => by simp [hp] at h⟩
  | purgeFailed hp => exact ⟨by simp [hp, phaseMoves], fun h => by simp [hp] at h⟩
  | purged hp => exact ⟨by simp [hp, phaseMoves], fun h => by simp [hp] at h⟩
  | sent hp => exact ⟨by simp [hp, phaseMoves], fun h => by simp [hp] at h⟩
  | sendFailed hp => exact ⟨by simp [hp, phaseMoves], fun h => by simp [hp] at h⟩
  | flushed hp => exact ⟨by simp [hp, flushPhase, startDecode, phaseMoves], fun h => by simp [hp] at h⟩
  | read hp a rest h => exact h.phase hp

/-! ### The sequence counter (R29) -/

theorem Reads.seq {s t : State} (h : Reads s t) : t.seq = s.seq := by
  cases h <;> rfl

/-- The counter is taken when a command is accepted; no primitive touches it (R171). -/
theorem SmallStep.seq {s t : State} (h : SmallStep s t) : t.seq = s.seq := by
  cases h with
  | read _ a rest h => exact h.seq
  | _ => rfl

theorem tick_seq {s t : State} (h : stateOf (tick s) = some t) : t.seq = s.seq :=
  (tick_smallStep h).seq

theorem arrive_seq {bs : List Byte} {s t : State} (h : stateOf (arrive bs s) = some t) : t.seq = s.seq :=
  arrive_keeps (P := fun u => u.seq = s.seq) (fun _ _ hs hk => hk.seq.trans hs) h (fun _ => rfl)

theorem xact_seq {r : Request} {ret : Return} {s t : State} (h : stateOf (xact r ret s) = some t) : t.seq = s.seq + 1 :=
  xact_keeps (P := fun u => u.seq = s.seq + 1) (fun _ _ hs hk => hk.seq.trans hs) h (fun _ => nextSeq_eq s.seq)

/-- A command that leaves a state was accepted, and took one number (R171, R176, R194). -/
theorem exec_command_seq {i : Instr} {s t : State} (hc : i.isCommand = true) (h : stateOf (exec i s) = some t) :
    i.wf = true ∧ s.ph = .idle ∧ t.seq = s.seq + 1 := by
  cases hw : i.wf with
  | false =>
    rw [exec_illFormed hw] at h
    cases h
  | true =>
    obtain ⟨r, hr⟩ := isCommand_request s.cfg hc
    rw [exec_command hw hr] at h
    refine ⟨rfl, by_contra fun hi => ?_, xact_seq h⟩
    rw [xact_busy hi] at h
    cases h

/-- A response takes no number. -/
theorem exec_response_seq {i : Instr} {s t : State} (hc : i.isCommand = false) (h : stateOf (exec i s) = some t) :
    t.seq = s.seq := by
  cases hw : i.wf with
  | false =>
    rw [exec_illFormed hw] at h
    cases h
  | true =>
    rw [exec_response (seq := 0) hw hc] at h
    exact arrive_seq h

/-- What is decoded from the receive side is a response (R83, R84). -/
theorem decodeResponse_isCommand {bs tail : List Byte} {i : Instr} (h : decodeResponse bs = .ok (i, tail)) :
    i.isCommand = false := by
  unfold decodeResponse at h
  split at h
  · simp only at h
    split at h
    · cases h; rfl
    · split at h
      · cases h; rfl
      · split at h
        · cases h; rfl
        · cases h
  · cases h

/-- Where no second half of `SYNC_POSITION` is due, what is accepted is the next input. -/
theorem acceptsCommand_iff_input {s : State} (hq : secondHalfDue s = false) :
    AcceptsCommand s ↔ s.ph = .idle ∧
      ((∃ i rest, s.inbox = .command i :: rest ∧ i.isCommand = true ∧ i.wf = true) ∨
        ∃ ticks rest, s.inbox = .syncPosition ticks :: rest) := by
  refine and_congr_right fun hi => ?_
  rw [if_neg fun hp => not_secondHalfDue_iff.mp hq hp hi]

theorem acceptsCommand_iff_secondHalf {s : State} (hq : secondHalfDue s = true) :
    AcceptsCommand s ↔ s.res = some .ok := by
  obtain ⟨hp, hi⟩ := secondHalfDue_iff.mp hq
  simp [AcceptsCommand, hp, hi]

/-- The three clauses of O43, of a step from `s` that leaves the counter at `q`. -/
def SeqRule (s : State) (q : Nibble) : Prop :=
  (AcceptsCommand s → q = s.seq + 1) ∧ (TakesReset s → q = s.cfg.seqReset) ∧
    (¬ AcceptsCommand s → ¬ TakesReset s → q = s.seq)

theorem SeqRule.accepted {s : State} {q : Nibble} (ha : AcceptsCommand s) (hr : ¬ TakesReset s) (h : q = s.seq + 1) :
    SeqRule s q :=
  ⟨fun _ => h, fun hr' => absurd hr' hr, fun ha' => absurd ha ha'⟩

theorem SeqRule.kept {s : State} {q : Nibble} (ha : ¬ AcceptsCommand s) (hr : ¬ TakesReset s) (h : q = s.seq) :
    SeqRule s q :=
  ⟨fun ha' => absurd ha' ha, fun hr' => absurd hr' hr, fun _ _ => h⟩

theorem SeqRule.reset {s : State} {q : Nibble} (ha : ¬ AcceptsCommand s) (hr : TakesReset s) (h : q = s.cfg.seqReset) :
    SeqRule s q :=
  ⟨fun ha' => absurd ha' ha, fun _ => h, fun _ hr' => absurd hr hr'⟩

/-- A second half that is due is a `SYNC` that is accepted, or is not run (R97). -/
theorem secondHalf_seqRule {s t : State} (hq : secondHalfDue s = true) (h : stateOf (step s) = some t) : SeqRule s t.seq := by
  have hr : ¬ TakesReset s := fun hr => by simp [TakesReset, hq] at hr
  rw [step_secondHalf hq] at h
  split at h
  · next ho =>
    obtain ⟨_, _, hs⟩ := exec_command_seq (i := .sync) rfl h
    exact .accepted ((acceptsCommand_iff_secondHalf hq).mpr ho) hr hs
  · next ho =>
    cases h
    exact .kept (fun ha => ho ((acceptsCommand_iff_secondHalf hq).mp ha)) hr rfl

/-- The next input is accepted, is a reset, or leaves the counter alone. -/
theorem input_seqRule {s t : State} (hq : secondHalfDue s = false) (h : stateOf (step s) = some t) : SeqRule s t.seq := by
  cases hi : s.inbox with
  | nil =>
    rw [step_tick hq hi] at h
    exact .kept (by simp [acceptsCommand_iff_input hq, hi]) (by simp [TakesReset, hi]) (tick_seq h)
  | cons x rest =>
    cases x with
    | command i =>
      have hr : ¬ TakesReset s := by simp [TakesReset, hi]
      rw [step_command hq hi] at h
      cases hc : i.isCommand with
      | true =>
        obtain ⟨hw, hp, hs⟩ := exec_command_seq hc h
        exact .accepted ((acceptsCommand_iff_input hq).mpr ⟨hp, .inl ⟨i, rest, hi, hc, hw⟩⟩) hr hs
      | false =>
        exact .kept (by simp [acceptsCommand_iff_input hq, hi, hc]) hr ((exec_response_seq hc h).trans rfl)
    | frame bs =>
      refine .kept (by simp [acceptsCommand_iff_input hq, hi]) (by simp [TakesReset, hi]) ?_
      cases hd : decodeResponse bs with
      | ok x =>
        rw [step_response (i := x.1) (tail := x.2) hq hi hd] at h
        exact (exec_response_seq (decodeResponse_isCommand hd) h).trans rfl
      | error e =>
        rw [step_bytes hq hi hd] at h
        exact (arrive_seq h).trans rfl
    | reset =>
      rw [step_reset hq hi] at h
      cases h
      exact .reset (by simp [acceptsCommand_iff_input hq, hi]) (by simp [TakesReset, hq, hi]) rfl
    | syncPosition ticks =>
      rw [step_syncPosition hq hi] at h
      obtain ⟨_, hp, hs⟩ := exec_command_seq (i := .setMeasuredPosition ticks) rfl h
      exact .accepted ((acceptsCommand_iff_input hq).mpr ⟨hp, .inr ⟨ticks, rest, hi⟩⟩) (by simp [TakesReset, hi]) hs

/-- Settles O43: a second half that is due comes first (log entry 25), then the next input. -/
theorem seqMovesOnlyByCommandsAndReset : Obligations.SeqMovesOnlyByCommandsAndReset := by
  intro s t h
  cases hq : secondHalfDue s with
  | true => exact secondHalf_seqRule hq h
  | false => exact input_seqRule hq h

/-! ### The requests of the commands are within the encoder's ranges (R132) -/

theorem request_wf {i : Instr} {cfg : Config} {r : Request} (hw : i.wf = true) (hr : i.request cfg = some r) : r.wf = true := by
  cases i <;> simp only [Instr.request, Option.some.injEq, reduceCtorEq] at hr <;> subst hr
  case writeReg idx off wc words =>
    have hl : words.length = wc.toNat := by simpa [Instr.wf, wordsMatch] using hw
    by_cases h0 : wc = 0
    · simp [Request.wf, h0]
    · rw [if_neg h0]
      simp [Request.wf, wordsToBytes_length, hl]
  case setMeasuredPosition => simp [Request.wf, ticksRequest, u32ToBytes_length]
  case gotoTicks => simp [Request.wf, ticksRequest, u32ToBytes_length]
  case readReg | getPositionTicks | getStatus | getFirmwareInfo | getProductInfo => rfl
  all_goals simp [Request.wf, wordRequest, wordsToBytes_length]

/-- A word count is one byte, so no payload is longer than `PAY_MAX` (R85). -/
theorem request_pay_length {r : Request} (h : r.wf = true) : (r.pay.getD []).length ≤ 510 := by
  have hw : r.wc.toNat < 256 := r.wc.isLt
  obtain ⟨dir, idx, off, wc, pay⟩ := r
  cases pay with
  | none => simp
  | some p =>
    cases dir with
    | read => cases h
    | write =>
      have hp : p.length = 2 * wc.toNat := by simpa [Request.wf] using h
      simp only [Option.getD_some]
      omega

theorem payloadBlock_length_le (pay : Option (List Byte)) : (payloadBlock pay).length ≤ (pay.getD []).length + 2 := by
  rcases pay with _ | _ | ⟨b, bs⟩ <;> simp [payloadBlock, withCrc, be16]

/-- The longest request is `FRAME_MAX` bytes (R85). -/
theorem encodeRequest_length_le {r : Request} (h : r.wf = true) (seq : Nibble) : (encodeRequest seq r).length ≤ 520 := by
  have hp := request_pay_length h
  have hb := payloadBlock_length_le r.pay
  have hh : (withCrc (requestHeader seq r)).length = 8 := rfl
  rw [encodeRequest, List.length_append, hh]
  omega

/-! ### The invariant of the block (R22 to R28, R31) -/

/-- The invariant says nothing of the trace, of the transport, or of the inputs to come. -/
theorem State.Inv.elsewhere {s : State} (h : s.Inv) (trace : List Event) (line : Line) (inbox : List Input) (pending : Bool) :
    State.Inv { s with trace := trace, line := line, inbox := inbox, syncPending := pending } where
  bounded := ⟨h.bounded.tx, h.bounded.rxHdr, h.bounded.rxPay, h.bounded.rxPLen, h.bounded.rxPCrc, h.bounded.latches⟩
  phase := ⟨h.phase.inFlight, h.phase.sending, h.phase.unread, h.phase.header, h.phase.payload⟩
  results := ⟨h.results.absent, h.results.frame, h.results.codes, h.results.enforced⟩
  diagnostics := ⟨h.diagnostics.header, h.diagnostics.payload⟩

/-- An idle block owes its counters and latches nothing. -/
theorem phaseAgrees_idle {s : State} (h : s.ph = .idle) : PhaseAgrees s := by
  constructor <;> simp [h]

/-- No command has ended yet, or the last one is in flight: no result is owed. -/
theorem resultsAgree_of_none {s : State} (h : s.res = none) (hv : s.rval = none ∧ s.rframe = none) : ResultsAgree s := by
  constructor <;> simp [h, hv]

/-- With both `_VALID` bits 0 nothing is promised. -/
theorem diagnosticsAgree_of_invalid {s : State} (hh : s.hcrcValid = false) (hp : s.pcrcValid = false) : DiagnosticsAgree s := by
  constructor <;> simp [hh, hp]

theorem inv_resetWith (cfg : Config) : (State.resetWith cfg).Inv where
  bounded := by constructor <;> simp [State.resetWith]
  phase := phaseAgrees_idle rfl
  results := resultsAgree_of_none rfl ⟨rfl, rfl⟩
  diagnostics := diagnosticsAgree_of_invalid rfl rfl

/-- Settles O53: empty buffers, counters at 0, no results, and no `_VALID` bit, whatever the configuration. -/
theorem resetMeetsTheInvariant : Obligations.ResetMeetsTheInvariant :=
  ⟨inv_resetWith, inv_resetWith Config.ofSource⟩

theorem inv_resetBlock (s : State) : (resetBlock s).Inv :=
  (inv_resetWith s.cfg).elsewhere s.trace s.line s.inbox false

/-- The errors the block raises itself (R210, R214): `CrcMismatch` only where it is configured. -/
def Raised (cfg : Config) (e : ResultCode) : Prop :=
  e = .timeout ∨ e = .transportError ∨ e = .badResponse ∨ (e = .crcMismatch ∧ cfg.verifyResponseCrc = true)

/-- An error ends the command with the buffers and the diagnostics as they are. -/
theorem inv_raise {e : ResultCode} {s : State} (he : Raised s.cfg e) (hb : Bounded s) (hd : DiagnosticsAgree s) :
    (raise e s).Inv where
  bounded := ⟨hb.tx, hb.rxHdr, hb.rxPay, hb.rxPLen, hb.rxPCrc, hb.latches⟩
  phase := phaseAgrees_idle rfl
  results := by rcases he with rfl | rfl | rfl | ⟨rfl, hv⟩ <;> constructor <;> simp [*]
  diagnostics := ⟨hd.header, hd.payload⟩

theorem inv_succeed {v : Option Value} {s : State} (hb : Bounded s) (hd : DiagnosticsAgree s) : (succeed v s).Inv where
  bounded := ⟨hb.tx, hb.rxHdr, hb.rxPay, hb.rxPLen, hb.rxPCrc, hb.latches⟩
  phase := phaseAgrees_idle rfl
  results := by constructor <;> simp [succeed]
  diagnostics := ⟨hd.header, hd.payload⟩

/-- A well-formed request is latched, and everything the last command left is marked as gone (R170). -/
theorem inv_accept {r : Request} {ret : Return} {s : State} (h : s.Inv) (hr : r.wf = true) : (accept r ret s).Inv where
  bounded := ⟨h.bounded.tx, h.bounded.rxHdr, h.bounded.rxPay, h.bounded.rxPLen, h.bounded.rxPCrc, by
    rintro op ⟨⟩
    exact ⟨by rwa [request_latch], request_pay_length hr⟩⟩
  phase := by constructor <;> simp
  results := resultsAgree_of_none rfl ⟨rfl, rfl⟩
  diagnostics := diagnosticsAgree_of_invalid rfl rfl

/-- After a successful purge the request stands in `TXBUF`, from the latches (R131). -/
theorem inv_load {s : State} (h : s.Inv) (hp : s.ph = .purging) :
    State.Inv { loadRequest (operands s).seq (operands s).request s with ph := .sending } := by
  obtain ⟨ho, hr⟩ := h.phase.inFlight (by simp [hp])
  obtain ⟨op, ho⟩ := Option.isSome_iff_exists.mp ho
  obtain ⟨hw, hl⟩ := h.bounded.latches op ho
  have hf := encodeRequest_length_le hw op.seq
  have hv := h.phase.unread (.inl hp)
  rw [operands_of_op ho]
  exact {
    bounded := ⟨by simpa using ⟨h.bounded.tx.2, hf⟩, h.bounded.rxHdr, h.bounded.rxPay, h.bounded.rxPLen, h.bounded.rxPCrc,
      h.bounded.latches⟩
    phase := {
      inFlight := fun _ => ⟨by simp [ho], hr⟩
      sending := by
        rintro - op' ho'
        obtain rfl : op = op' := Option.some.inj (ho.symm.trans ho')
        exact txFrame_loadRequest _ _ _
      unread := fun _ => hv
      header := fun h => nomatch h
      payload := fun h => nomatch h }
    results := ⟨h.results.absent, h.results.frame, h.results.codes, h.results.enforced⟩
    diagnostics := diagnosticsAgree_of_invalid hv.1 hv.2 }

theorem inv_flushing {s : State} (h : s.Inv) (hp : s.ph = .sending) : State.Inv { s with ph := .flushing } where
  bounded := ⟨h.bounded.tx, h.bounded.rxHdr, h.bounded.rxPay, h.bounded.rxPLen, h.bounded.rxPCrc, h.bounded.latches⟩
  phase := {
    inFlight := fun _ => h.phase.inFlight (by simp [hp])
    sending := fun _ => h.phase.sending (.inl hp)
    unread := fun _ => h.phase.unread (.inr (.inl hp))
    header := fun h => nomatch h
    payload := fun h => nomatch h }
  results := ⟨h.results.absent, h.results.frame, h.results.codes, h.results.enforced⟩
  diagnostics := ⟨h.diagnostics.header, h.diagnostics.payload⟩

/-- The parser starts with its counters at 0 (R137). -/
theorem inv_startDecode {s : State} (h : s.Inv) (hp : s.ph = .flushing) : (startDecode s).Inv := by
  have hv := h.phase.unread (.inr (.inr (.inl hp)))
  exact {
    bounded := ⟨h.bounded.tx, ⟨Nat.zero_le _, h.bounded.rxHdr.2⟩, ⟨Nat.zero_le _, h.bounded.rxPay.2⟩,
      ⟨le_rfl, Nat.zero_le _⟩, ⟨Nat.zero_le _, h.bounded.rxPCrc.2⟩, h.bounded.latches⟩
    phase := {
      inFlight := fun _ => h.phase.inFlight (by simp [hp])
      sending := by rintro (h | h) <;> cases h
      unread := fun _ => hv
      header := fun _ => ⟨Nat.succ_pos 7, rfl, rfl, rfl⟩
      payload := fun h => nomatch h }
    results := ⟨h.results.absent, h.results.frame, h.results.codes, h.results.enforced⟩
    diagnostics := diagnosticsAgree_of_invalid hv.1 hv.2 }

/-! The registers behind a stored byte. -/

theorem bounded_storeHeaderByte (b : Byte) {s : State} (h : Bounded s) (hc : s.rxHCnt < 8) : Bounded (storeHeaderByte b s) := by
  obtain ⟨hl, hm⟩ := h.rxHdr
  refine ⟨h.tx, ?_, h.rxPay, h.rxPLen, h.rxPCrc, h.latches⟩
  simp only [storeHeaderByte, length_putAt _ _ _ hl, constants_hdrBlkLen] at hm ⊢
  omega

theorem bounded_storePayloadByte (b : Byte) {s : State} (h : Bounded s) (hc : s.rxPCnt < s.rxPLen) :
    Bounded (storePayloadByte b s) := by
  obtain ⟨hl, hm⟩ := h.rxPay
  obtain ⟨_, hn⟩ := h.rxPLen
  refine ⟨h.tx, h.rxHdr, ?_, ⟨hc, hn⟩, h.rxPCrc, h.latches⟩
  simp only [storePayloadByte, length_putAt _ _ _ hl, constants_payMax] at hm hn ⊢
  omega

theorem bounded_storeCrcByte (b : Byte) {s : State} (h : Bounded s) (hc : s.rxCCnt < 2) : Bounded (storeCrcByte b s) := by
  obtain ⟨hl, hm⟩ := h.rxPCrc
  refine ⟨h.tx, h.rxHdr, h.rxPay, h.rxPLen, ?_, h.latches⟩
  simp only [storeCrcByte, length_putAt _ _ _ hl]
  omega

/-- Recording the header diagnostic moves no buffer. -/
theorem bounded_header (b : Byte) {s : State} (h : s.Inv) (hp : s.ph = .rxHeader) :
    Bounded (setHeaderCrcFlags (storeHeaderByte b s)) := by
  obtain ⟨hc, _⟩ := h.phase.header hp
  obtain ⟨htx, hh, hpay, hlen, hcrc, hop⟩ := bounded_storeHeaderByte b h.bounded hc
  exact ⟨htx, hh, hpay, hlen, hcrc, hop⟩

/-- The header block has been received whole: its diagnostic is the one promised (R140). -/
theorem diagnosticsAgree_header {s : State} (h : s.pcrcValid = false) : DiagnosticsAgree (setHeaderCrcFlags s) :=
  ⟨fun _ => ⟨rfl, rfl, rfl⟩, by simp [h]⟩

/-- Recording the payload diagnostic moves no buffer. -/
theorem bounded_payload (b : Byte) {s : State} (h : s.Inv) (hp : s.ph = .rxPayload) :
    Bounded (setPayloadCrcFlags (storeCrcByte b s)) := by
  obtain ⟨_, _, _, _, _, _, hc, _⟩ := h.phase.payload hp
  obtain ⟨htx, hh, hpay, hlen, hcrc, hop⟩ := bounded_storeCrcByte b h.bounded hc
  exact ⟨htx, hh, hpay, hlen, hcrc, hop⟩

/-- The payload block has been received whole: its diagnostic is the one promised (R144), and the header's stays. -/
theorem diagnosticsAgree_payload (b : Byte) {s : State} (h : DiagnosticsAgree s) :
    DiagnosticsAgree (setPayloadCrcFlags (storeCrcByte b s)) :=
  ⟨h.header, fun _ => ⟨rfl, rfl, rfl⟩⟩

/-! What each answer leaves of the invariant. -/

theorem inv_headerByte (b : Byte) {s : State} (h : s.Inv) (hp : s.ph = .rxHeader) (hc : s.rxHCnt + 1 < 8) :
    (storeHeaderByte b s).Inv := by
  have hv := h.phase.unread (.inr (.inr (.inr hp)))
  obtain ⟨hc', hcounts⟩ := h.phase.header hp
  exact {
    bounded := bounded_storeHeaderByte b h.bounded hc'
    phase := {
      inFlight := h.phase.inFlight
      sending := h.phase.sending
      unread := h.phase.unread
      header := fun _ => ⟨hc, hcounts⟩
      payload := fun h => by simp [storeHeaderByte, hp] at h }
    results := ⟨h.results.absent, h.results.frame, h.results.codes, h.results.enforced⟩
    diagnostics := diagnosticsAgree_of_invalid hv.1 hv.2 }

theorem inv_noPayload (b : Byte) (v : Option Value) {s : State} (h : s.Inv) (hp : s.ph = .rxHeader) :
    State.Inv (succeed v { setHeaderCrcFlags (storeHeaderByte b s) with rxPLen := 0 }) := by
  obtain ⟨_, hv⟩ := h.phase.unread (.inr (.inr (.inr hp)))
  obtain ⟨_, _, h0, _⟩ := h.phase.header hp
  obtain ⟨htx, hh, hpay, _, hcrc, hop⟩ := bounded_header b h hp
  refine inv_succeed ⟨htx, hh, hpay, ⟨h0.le, Nat.zero_le _⟩, hcrc, hop⟩ ⟨fun _ => ⟨rfl, rfl, rfl⟩, ?_⟩
  simp [storeHeaderByte, hv]

/-- The payload length is twice a byte that is not 0 (R142). -/
theorem inv_payloadExpected (b : Byte) {s : State} (h : s.Inv) (hp : s.ph = .rxHeader) (hc : 8 ≤ s.rxHCnt + 1)
    (hs : hdrByte (storeHeaderByte b s) 3 = constants.statusOk) (hw : (hdrByte (storeHeaderByte b s) 5).toNat ≠ 0) :
    State.Inv { setHeaderCrcFlags (storeHeaderByte b s) with
      rxPLen := 2 * (hdrByte (storeHeaderByte b s) 5).toNat, ph := .rxPayload } := by
  have hb : (hdrByte (storeHeaderByte b s) 5).toNat < 256 := (hdrByte (storeHeaderByte b s) 5).isLt
  obtain ⟨_, hv⟩ := h.phase.unread (.inr (.inr (.inr hp)))
  obtain ⟨hc', _, h0, hc0⟩ := h.phase.header hp
  have h8 : s.rxHCnt + 1 = 8 := by omega
  obtain ⟨htx, hh, hpay, _, hcrc, hop⟩ := bounded_header b h hp
  exact {
    bounded := ⟨htx, hh, hpay, ⟨h0.le.trans (Nat.zero_le _), by simp only [constants_payMax]; omega⟩, hcrc, hop⟩
    phase := {
      inFlight := fun _ => h.phase.inFlight (by simp [hp])
      sending := by rintro (h | h) <;> cases h
      unread := by rintro (h | h | h | h) <;> cases h
      header := fun h => nomatch h
      payload := fun _ => ⟨h8, rfl, hv, hs, rfl, by simp only; omega, hc0.trans_lt (by decide), fun _ => hc0⟩ }
    results := ⟨h.results.absent, h.results.frame, h.results.codes, h.results.enforced⟩
    diagnostics := ⟨fun _ => ⟨rfl, rfl, rfl⟩, by simp [storeHeaderByte, hv]⟩ }

theorem inv_payloadByte (b : Byte) {s : State} (h : s.Inv) (hp : s.ph = .rxPayload) (hl : s.rxPCnt < s.rxPLen) :
    (storePayloadByte b s).Inv := by
  obtain ⟨h8, hh, hv, hs, hlen, hpos, hc, h0⟩ := h.phase.payload hp
  exact {
    bounded := bounded_storePayloadByte b h.bounded hl
    phase := {
      inFlight := h.phase.inFlight
      sending := h.phase.sending
      unread := h.phase.unread
      header := fun h => by simp [storePayloadByte, hp] at h
      payload := fun _ => ⟨h8, hh, hv, hs, hlen, hpos, hc, fun _ => h0 hl⟩ }
    results := ⟨h.results.absent, h.results.frame, h.results.codes, h.results.enforced⟩
    diagnostics := ⟨h.diagnostics.header, by simp [storePayloadByte, hv]⟩ }

theorem inv_crcByte (b : Byte) {s : State} (h : s.Inv) (hp : s.ph = .rxPayload) (hl : s.rxPLen ≤ s.rxPCnt)
    (hc : s.rxCCnt + 1 < 2) : (storeCrcByte b s).Inv := by
  obtain ⟨h8, hh, hv, hs, hlen, hpos, hc', _⟩ := h.phase.payload hp
  exact {
    bounded := bounded_storeCrcByte b h.bounded hc'
    phase := {
      inFlight := h.phase.inFlight
      sending := h.phase.sending
      unread := h.phase.unread
      header := fun h => by simp [storeCrcByte, hp] at h
      payload := fun _ => ⟨h8, hh, hv, hs, hlen, hpos, hc, fun hlt => absurd hlt (not_lt.mpr hl)⟩ }
    results := ⟨h.results.absent, h.results.frame, h.results.codes, h.results.enforced⟩
    diagnostics := ⟨h.diagnostics.header, by simp [storeCrcByte, hv]⟩ }

theorem Reads.inv {s t : State} (h : Reads s t) (hs : s.Inv) : t.Inv := by
  cases h with
  | failed he => exact inv_raise (he.imp_right .inl) hs.bounded hs.diagnostics
  | headerByte b hp hc => exact inv_headerByte b hs hp hc
  | headerMismatch b hp hv =>
    exact inv_raise (.inr (.inr (.inr ⟨rfl, hv⟩))) (bounded_header b hs hp)
      (diagnosticsAgree_header (hs.phase.unread (.inr (.inr (.inr hp)))).2)
  | badStatus b hp =>
    exact inv_raise (.inr (.inr (.inl rfl))) (bounded_header b hs hp)
      (diagnosticsAgree_header (hs.phase.unread (.inr (.inr (.inr hp)))).2)
  | noPayload b v hp => exact inv_noPayload b v hs hp
  | payloadExpected b hp hc hst hw => exact inv_payloadExpected b hs hp hc hst hw
  | payloadByte b hp hl => exact inv_payloadByte b hs hp hl
  | crcByte b hp hl hc => exact inv_crcByte b hs hp hl hc
  | payloadMismatch b hp hv =>
    exact inv_raise (.inr (.inr (.inr ⟨rfl, hv⟩))) (bounded_payload b hs hp) (diagnosticsAgree_payload b hs.diagnostics)
  | payloadAccepted b v hp => exact inv_succeed (bounded_payload b hs hp) (diagnosticsAgree_payload b hs.diagnostics)

/-- A transport error ends the command with the registers as the primitive found them. -/
theorem inv_transportError {s : State} (h : s.Inv) : (raise .transportError s).Inv :=
  inv_raise (.inr (.inl rfl)) h.bounded h.diagnostics

theorem SmallStep.inv {s t : State} (hs : s.Inv) (h : SmallStep s t) : t.Inv := by
  cases h with
  | idle hp => exact hs
  | purgeFailed hp ps => exact inv_transportError (hs.elsewhere _ _ _ _)
  | purged hp line => exact inv_load (hs.elsewhere (s.trace ++ [Event.purge .ok]) line s.inbox s.syncPending) hp
  | sent hp e line => exact inv_flushing (hs.elsewhere (s.trace ++ [e]) line s.inbox s.syncPending) hp
  | sendFailed hp e line => exact inv_transportError (hs.elsewhere _ _ _ _)
  | flushed hp => exact inv_startDecode (hs.elsewhere (s.trace ++ [Event.flush]) s.line s.inbox s.syncPending) hp
  | read hp a rest h => exact h.inv (hs.elsewhere _ _ _ _)

theorem arrive_inv {bs : List Byte} {s t : State} (hs : s.Inv) (h : stateOf (arrive bs s) = some t) : t.Inv :=
  arrive_keeps (P := State.Inv) (fun _ _ => SmallStep.inv) h fun _ => hs.elsewhere _ _ _ _

theorem exec_inv {i : Instr} {s t : State} (hs : s.Inv) (h : stateOf (exec i s) = some t) : t.Inv := by
  cases hw : i.wf with
  | false =>
    rw [exec_illFormed hw] at h
    cases h
  | true =>
    cases hc : i.isCommand with
    | true =>
      obtain ⟨r, hr⟩ := isCommand_request s.cfg hc
      rw [exec_command hw hr] at h
      exact xact_keeps (P := State.Inv) (fun _ _ => SmallStep.inv) h fun _ => inv_accept hs (request_wf hw hr)
    | false =>
      rw [exec_response (seq := 0) hw hc] at h
      exact arrive_inv hs h

/-- The invariant is kept by every step that leaves a state, that of a short payload included. -/
theorem step_inv {s t : State} (hs : s.Inv) (h : stateOf (step s) = some t) : t.Inv := by
  rcases step_cases s with ⟨i, rest, _, ho⟩ | ⟨bs, i, tail, rest, _, _, ho⟩ | ⟨bs, rest, _, ho⟩ | ⟨rest, _, ho⟩ |
    ⟨ticks, rest, _, ho⟩ | ⟨_, _, ho⟩ | ⟨_, _, ho⟩ | ⟨_, ho⟩ <;> rw [ho] at h
  · exact exec_inv (hs.elsewhere _ _ _ _) h
  · exact exec_inv (hs.elsewhere _ _ _ _) h
  · exact arrive_inv (hs.elsewhere _ _ _ _) h
  · cases h; exact inv_resetBlock _
  · exact exec_inv (hs.elsewhere _ _ _ _) h
  · exact exec_inv (hs.elsewhere _ _ _ _) h
  · cases h; exact hs.elsewhere _ _ _ _
  · exact (tick_smallStep h).inv hs

/-- Settles O52: acceptance, every primitive and every answer keep the invariant, and the inputs and the transport have no part in it. -/
theorem everyStepKeepsTheInvariant : Obligations.EveryStepKeepsTheInvariant := by
  intro s t hs h
  exact step_inv hs (by rw [h]; rfl)

end Sys2Proof.Machine
end

section
/-! PROOF. What a step runs (R27, R52, R96, R194, R216) and what the caller can read (R27, R28, R31, R35). -/

namespace Sys2Proof.Machine

/-! ### The instruction a step takes -/

/-- The header block of a response is read field by field (R83). -/
theorem decodeResponse_block (h : RspHeader) (rest : List Byte) :
    decodeResponse (responseBlock h ++ rest) =
      if h.status ≠ constants.statusOk then .ok (.rspErr h, rest)
      else if h.wc = 0 then .ok (.rspOk h [] none, rest)
      else
        match rest.drop (2 * h.wc.toNat) with
        | c0 :: c1 :: tail => .ok (.rspOk h (rest.take (2 * h.wc.toNat)) (some (wordOf c0 c1)), tail)
        | _ => .error .truncatedPayload := by
  have hh : (⟨h.sof, h.addr, h.ctrl, h.status, h.reserved, h.wc, wordOf (hiByte h.hcrc) (loByte h.hcrc)⟩ : RspHeader) = h := by
    rw [wordOf_hi_lo]
  conv_rhs => rw [← hh]
  rfl

/-- A well-formed response is read back from its bytes (R83, R84). -/
theorem decodeResponse_encode {i : Instr} (hw : i.wf = true) (hc : i.isCommand = false) (cfg : Config) (seq : Nibble) :
    decodeResponse (encode cfg seq i) = .ok (i, []) := by
  cases i
  case rspErr h =>
    have hs : h.status ≠ constants.statusOk := by simpa [Instr.wf, statusIsOk] using hw
    rw [encode, ← List.append_nil (responseBlock h), decodeResponse_block, if_pos hs]
  case rspOk h payload pcrc =>
    simp only [Instr.wf, statusIsOk, payloadMatches, Bool.and_eq_true, beq_iff_eq] at hw
    obtain ⟨hs, hl, hp⟩ := hw
    rw [encode, responseBytes, List.append_assoc, decodeResponse_block, if_neg (not_not.mpr hs)]
    by_cases h0 : h.wc = 0
    · have hnil : payload = [] := List.eq_nil_of_length_eq_zero (by simpa [h0] using hl)
      have hnone : pcrc = none := by simpa [h0] using hp
      rw [if_pos h0, hnil, hnone]
      rfl
    · obtain ⟨c, rfl⟩ := Option.isSome_iff_exists.mp (hp.trans (bne_iff_ne.mpr h0))
      rw [if_neg h0, ← hl, List.drop_left, List.take_left]
      simp [pcrcBytes, be16]
  all_goals cases hc

/-- What is decoded from the receive side is well formed: its parts are cut to the lengths the header says (R84). -/
theorem decodeResponse_wf {bs tail : List Byte} {i : Instr} (h : decodeResponse bs = .ok (i, tail)) : i.wf = true := by
  unfold decodeResponse at h
  split at h
  · next b0 b1 b2 b3 b4 b5 b6 b7 rest =>
    simp only at h
    split at h
    · next hs => cases h; simpa [Instr.wf, statusIsOk] using hs
    · next hs =>
      have hs : b3 = constants.statusOk := not_not.mp hs
      split at h
      · next h0 => cases h; simp [Instr.wf, statusIsOk, payloadMatches, hs, h0]
      · next h0 =>
        split at h
        · next c0 c1 more hd =>
          cases h
          have hl : 2 * b5.toNat ≤ rest.length := by
            have := congrArg List.length hd
            simp only [List.length_drop, List.length_cons] at this
            omega
          simpa [Instr.wf, statusIsOk, payloadMatches, hs, hl] using h0
        · cases h
  · cases h

/-- A row of the table of requests gives commands only (R91). -/
theorem rowCommand_isCommand {o : PayloadOrder} {row : Row} {r : Request} {i : Instr} (h : row.command o r = some i) :
    i.isCommand = true := by
  cases row <;> simp only [Row.command, Option.map_eq_some_iff, Option.some.injEq, reduceCtorEq] at h
  case setMeasuredPosition | gotoTicks =>
    obtain ⟨v, _, rfl⟩ := h
    rfl
  all_goals
    subst h
    rfl

theorem decodeAs_isCommand {o : PayloadOrder} {row : Row} {bs : List Byte} {x : Instr × List Byte}
    (hr : row.isCommand = true) (h : decodeAs o row bs = .ok x) : x.1.isCommand = true := by
  rw [decodeAs, if_pos hr] at h
  split at h
  · cases h
  · split at h
    · next hc => cases h; exact rowCommand_isCommand hc
    · cases h

theorem decodeFirst_isCommand {o : PayloadOrder} {bs : List Byte} {rows : List Row} {x : Instr × List Byte}
    (hr : ∀ row ∈ rows, row.isCommand = true) (h : decodeFirst o bs rows = .ok x) : x.1.isCommand = true := by
  induction rows with
  | nil => cases h
  | cons row rows ih =>
    obtain ⟨hrow, hrows⟩ := List.forall_mem_cons.mp hr
    rw [decodeFirst] at h
    split at h
    · next ho => cases h; exact decodeAs_isCommand hrow ho
    · exact ih hrows h

theorem decodeRequest_isCommand {o : PayloadOrder} {bs : List Byte} {x : Instr × List Byte} (h : decodeRequest o bs = .ok x) :
    x.1.isCommand = true := by
  unfold decodeRequest at h
  split at h
  · cases h
  · exact decodeFirst_isCommand (by decide) h

/-- Bytes decode to a command, or as the response the parser reads from them. -/
theorem decode_cases {o : PayloadOrder} {bs : List Byte} {x : Instr × List Byte} (h : decode o bs = .ok x) :
    x.1.isCommand = true ∨ decodeResponse bs = .ok x := by
  unfold decode at h
  split at h
  · next hx => cases h; exact .inl (decodeRequest_isCommand hx)
  · cases h
  · exact .inr h

/-- A word of the opcode table that decodes is an instruction that its frame gives back where it is a response. -/
theorem decodeTableWord_cases {nbits w : Nat} {i : Instr} (h : decodeTableWord nbits w = some i) (cfg : Config) (seq : Nibble) :
    i.isCommand = true ∨ decodeResponse (encode cfg seq i) = .ok (i, []) := by
  unfold decodeTableWord at h
  split at h
  · next j tail hd =>
    cases h
    exact (decode_cases hd).imp_right fun hr => decodeResponse_encode (decodeResponse_wf hr) (decodeResponse_isCommand hr) cfg seq
  · cases h

/-- The next step takes an input that is placed: a second half that was due is dropped. -/
theorem secondHalfDue_placeInput (x : Input) (s : State) : secondHalfDue (placeInput x s) = false := by
  cases hp : s.syncPending <;> cases hi : s.ph <;> simp [secondHalfDue, placeInput, hp, hi]

/-- An instruction that is placed is the next to run, in the state as it was but for a second half that was due. -/
theorem step_placeInstr {i : Instr} {s : State}
    (h : i.isCommand = true ∨ decodeResponse (encode s.cfg s.seq i) = .ok (i, [])) :
    step (placeInstr i s) = exec i { s with syncPending := s.syncPending && !secondHalfDue s } := by
  cases hc : i.isCommand with
  | true =>
    rw [placeInstr, if_pos hc, step_command (secondHalfDue_placeInput _ s) rfl]
    rfl
  | false =>
    have hd := h.resolve_left (by simp [hc])
    rw [placeInstr, if_neg (by simp [hc]), step_response (secondHalfDue_placeInput _ s) rfl hd]
    rfl

theorem step_withFetchWord {s : State} {nbits w : Nat} {i : Instr} (h : decodeTableWord nbits w = some i) :
    step (s.withFetchWord nbits w) = exec i { s with syncPending := s.syncPending && !secondHalfDue s } := by
  rw [State.withFetchWord, placeTableWord, h]
  exact step_placeInstr (decodeTableWord_cases h s.cfg s.seq)

/-- Settles O14: each kind of input by its rule of the step, and a placed word by what decoding it gives. -/
theorem stepRunsTheInstructionItTakes : Obligations.StepRunsTheInstructionItTakes := by
  refine ⟨fun s i rest hq hi => step_command hq hi, ?_, fun s bs e rest hq hi hd => step_bytes hq hi hd, ?_⟩
  · intro s bs tail i rest hq hi hd
    rw [step_response hq hi hd]
    cases tail <;> rfl
  · intro s nbits w i hd
    refine ⟨fun hq => ?_, fun hq => ?_⟩ <;> rw [step_withFetchWord hd, hq]
    · rw [Bool.not_false, Bool.and_true]
    · rw [Bool.not_true, Bool.and_false]

/-! ### The caller's reads -/

theorem busy_iff (s : State) : busy s = true ↔ s.ph ≠ .idle := by
  simp [busy]

/-- Settles O49: the reads look at `PH` first; the invariant says that no value and no frame stand without `Ok`, and what the three
diagnostic registers hold when their `_VALID` bit is 1. -/
theorem absentResultsCannotBeRead : Obligations.AbsentResultsCannotBeRead := by
  refine ⟨busy_iff, fun s h => ⟨fun hp => ?_, fun hp => ?_⟩⟩
  · simp only [callerRes, callerRval, callerRframe, callerHcrcValid, callerHcrcCalc, callerHcrcRecv, callerHcrcOk, callerPcrcValid,
      callerPcrcCalc, callerPcrcRecv, callerPcrcOk, readResult_inFlight hp, readDiagnostic_inFlight hp, whileIdle_inFlight hp,
      and_self]
  · simp only [callerRes, callerRval, callerRframe, callerHcrcValid, callerHcrcCalc, callerHcrcRecv, callerHcrcOk, callerPcrcValid,
      callerPcrcCalc, callerPcrcRecv, callerPcrcOk, readResult_idle hp, readDiagnostic_idle hp, whileIdle_idle hp]
    refine ⟨fun hr => ?_, fun hr => by rw [hr]; rfl, fun hr => by rw [hr]; rfl, fun hr => by rw [hr]; rfl,
      fun c hc => by rw [hc]; rfl, fun v hv => by rw [hv]; rfl, fun f hf => by rw [hf]; rfl, trivial, trivial, fun hv => ?_,
      fun hv => ?_, fun hv => ?_, fun hv => ?_⟩
    · obtain ⟨hv, hf⟩ := h.results.absent hr
      simp [hv, hf]
    · simp [hv]
    · simp [hv]
    · obtain ⟨hc, hr, ho⟩ := h.diagnostics.header hv
      simp [hv, hc, hr, ho]
    · obtain ⟨hc, hr, ho⟩ := h.diagnostics.payload hv
      simp [hv, hc, hr, ho]

end Sys2Proof.Machine
end

section
/-! PROOF. What an earlier command can leave behind for a later one (R29, R66): two parsers that have stored the same bytes since they
were started answer alike, whatever their buffers held before, so two transactions with the same number and the same answers do. -/

namespace Sys2Proof.Machine

/-! ### Buffers that hold the same bytes up to a count -/

/-- Two buffers whose first `k` bytes have been stored, and are the same; what stands behind them may differ (log entry 7). -/
structure SameStored (k : Nat) (x y : List Byte) : Prop where
  left : k ≤ x.length
  right : k ≤ y.length
  take : x.take k = y.take k

theorem sameStored_zero (x y : List Byte) : SameStored 0 x y :=
  ⟨Nat.zero_le _, Nat.zero_le _, rfl⟩

theorem SameStored.putAt {k : Nat} {x y : List Byte} (h : SameStored k x y) (b : Byte) :
    SameStored (k + 1) (putAt x k b) (putAt y k b) where
  left := by rw [length_putAt _ _ _ h.left]; omega
  right := by rw [length_putAt _ _ _ h.right]; omega
  take := by rw [take_putAt _ _ _ h.left, take_putAt _ _ _ h.right, h.take]

theorem SameStored.take_le {k n : Nat} {x y : List Byte} (h : SameStored k x y) (hn : n ≤ k) : x.take n = y.take n := by
  have hx := congrArg (List.take n) h.take
  rwa [List.take_take, List.take_take, Nat.min_eq_left hn] at hx

theorem SameStored.getD {k i : Nat} {x y : List Byte} (h : SameStored k x y) (hi : i < k) : x.getD i 0 = y.getD i 0 := by
  have hx := congrArg (·[i]?) h.take
  simp only [List.getElem?_take_of_lt hi] at hx
  simp only [List.getD_eq_getElem?_getD, hx]

/-! ### Parsers that answer alike -/

/-- Two receiving blocks, of commands accepted in `a₀` and `b₀`, that no answer to come can tell apart: what is read of them agrees, and
every buffer as far as it has been written since. -/
structure Alike (a₀ b₀ a b : State) : Prop where
  cfg : a.cfg = b.cfg
  seq : a.seq = b.seq
  ph : a.ph = b.ph
  ret : a.ret = b.ret
  res : a.res = b.res
  rval : a.rval = b.rval
  rframe : a.rframe = b.rframe
  events : ∃ es, a.trace = a₀.trace ++ es ∧ b.trace = b₀.trace ++ es
  hcrcValid : a.hcrcValid = b.hcrcValid
  pcrcValid : a.pcrcValid = b.pcrcValid
  hcrc : a.hcrcValid = true → (a.hcrcCalc, a.hcrcRecv, a.hcrcOk) = (b.hcrcCalc, b.hcrcRecv, b.hcrcOk)
  pcrc : a.pcrcValid = true → (a.pcrcCalc, a.pcrcRecv, a.pcrcOk) = (b.pcrcCalc, b.pcrcRecv, b.pcrcOk)
  rxHCnt : a.rxHCnt = b.rxHCnt
  rxPLen : a.rxPLen = b.rxPLen
  rxPCnt : a.rxPCnt = b.rxPCnt
  rxCCnt : a.rxCCnt = b.rxCCnt
  rxHdr : SameStored a.rxHCnt a.rxHdr b.rxHdr
  rxPay : SameStored a.rxPCnt a.rxPay b.rxPay
  rxPCrc : SameStored a.rxCCnt a.rxPCrc b.rxPCrc
  header : a.ph = .rxPayload → 8 ≤ a.rxHCnt

/-- Two commands end the same way: with next states, or with the states of a short payload, that are related. -/
inductive SameEnd (R : State → State → Prop) : Result → Result → Prop where
  | next {a b : State} (h : R a b) : SameEnd R (.next a) (.next b)
  | short {a b : State} (h : R a b) : SameEnd R (.fault (.shortPayload a)) (.fault (.shortPayload b))

theorem SameEnd.imp {R S : State → State → Prop} (hRS : ∀ a b, R a b → S a b) {o p : Result} (h : SameEnd R o p) :
    SameEnd S o p := by
  cases h with
  | next h => exact .next (hRS _ _ h)
  | short h => exact .short (hRS _ _ h)

theorem newEvents_append {s t : State} {es : List Event} (h : t.trace = s.trace ++ es) : newEvents s t = es := by
  rw [newEvents, h, List.drop_left]

theorem Alike.outcome {a₀ b₀ a b : State} (h : Alike a₀ b₀ a b) : SameOutcome a₀ a b₀ b where
  seq := h.seq
  ph := h.ph
  res := h.res
  rval := h.rval
  rframe := h.rframe
  events := by
    obtain ⟨es, ha, hb⟩ := h.events
    rw [newEvents_append ha, newEvents_append hb]
  hcrcValid := h.hcrcValid
  pcrcValid := h.pcrcValid
  hcrc := h.hcrc
  pcrc := h.pcrc

section
variable {a₀ b₀ a b : State}

/-! What the parser reads of its buffers. -/

theorem Alike.hdrByte (h : Alike a₀ b₀ a b) {i : Nat} (hi : i < a.rxHCnt) : hdrByte a i = hdrByte b i :=
  h.rxHdr.getD hi

theorem Alike.rxHeaderBytes (h : Alike a₀ b₀ a b) (h8 : 8 ≤ a.rxHCnt) : rxHeaderBytes a = rxHeaderBytes b :=
  h.rxHdr.take_le (le_trans (by decide) h8)

theorem Alike.rxHeaderCrc (h : Alike a₀ b₀ a b) (h8 : 8 ≤ a.rxHCnt) : rxHeaderCrc a = rxHeaderCrc b :=
  congrArg₂ wordOf (h.hdrByte (by omega)) (h.hdrByte (by omega))

theorem Alike.rxPayloadBytes (h : Alike a₀ b₀ a b) (hl : a.rxPLen ≤ a.rxPCnt) : rxPayloadBytes a = rxPayloadBytes b :=
  (h.rxPay.take_le hl).trans (by rw [h.rxPLen]; rfl)

theorem Alike.rxPayloadCrc (h : Alike a₀ b₀ a b) (hc : 2 ≤ a.rxCCnt) : rxPayloadCrc a = rxPayloadCrc b :=
  congrArg₂ wordOf (h.rxPCrc.getD (by omega)) (h.rxPCrc.getD (by omega))

theorem Alike.decodedFrame (h : Alike a₀ b₀ a b) (h8 : 8 ≤ a.rxHCnt) (hl : a.rxPLen ≤ a.rxPCnt)
    (hc : a.rxPLen = 0 ∨ 2 ≤ a.rxCCnt) : decodedFrame a = decodedFrame b := by
  have hcrc : (if a.rxPLen = 0 then none else some (Machine.rxPayloadCrc a)) =
      if b.rxPLen = 0 then none else some (Machine.rxPayloadCrc b) := by
    rw [← h.rxPLen]
    rcases hc with h0 | h2
    · rw [if_pos h0, if_pos h0]
    · rw [h.rxPayloadCrc h2]
  have hb (i : Nat) (hi : i < 8) : Machine.hdrByte a i = Machine.hdrByte b i := h.hdrByte (by omega)
  simp only [Machine.decodedFrame, hb, Nat.reduceLT, h.rxHeaderCrc h8, h.rxPayloadBytes hl, hcrc]

/-! What the parser does with an answer. -/

theorem Alike.raise (h : Alike a₀ b₀ a b) (e : ResultCode) : Alike a₀ b₀ (raise e a) (raise e b) :=
  { h with ph := rfl, res := rfl, rval := rfl, rframe := rfl, header := fun h => nomatch h }

theorem Alike.read (h : Alike a₀ b₀ a b) (x : ReadAnswer) (rest : List ReadAnswer) :
    Alike a₀ b₀ (tRead1 x rest a) (tRead1 x rest b) :=
  { h with
    events := by
      obtain ⟨es, ha, hb⟩ := h.events
      exact ⟨es ++ [.rx x], by simp [ha], by simp [hb]⟩ }

theorem Alike.headerFlags (h : Alike a₀ b₀ a b) (h8 : 8 ≤ a.rxHCnt) :
    Alike a₀ b₀ (setHeaderCrcFlags a) (setHeaderCrcFlags b) :=
  { h with
    hcrcValid := rfl
    hcrc := fun _ => by
      simp only [setHeaderCrcFlags_hcrcCalc, setHeaderCrcFlags_hcrcRecv, setHeaderCrcFlags_hcrcOk, h.rxHeaderBytes h8,
        h.rxHeaderCrc h8] }

theorem Alike.payloadFlags (h : Alike a₀ b₀ a b) (hl : a.rxPLen ≤ a.rxPCnt) (hc : 2 ≤ a.rxCCnt) :
    Alike a₀ b₀ (setPayloadCrcFlags a) (setPayloadCrcFlags b) :=
  { h with
    pcrcValid := rfl
    pcrc := fun _ => by
      simp only [setPayloadCrcFlags_pcrcCalc, setPayloadCrcFlags_pcrcRecv, setPayloadCrcFlags_pcrcOk, h.rxPayloadBytes hl,
        h.rxPayloadCrc hc] }

theorem Alike.storeHeaderByte (h : Alike a₀ b₀ a b) (x : Byte) (hp : a.ph = .rxHeader) :
    Alike a₀ b₀ (storeHeaderByte x a) (storeHeaderByte x b) :=
  { h with
    rxHCnt := congrArg (· + 1) h.rxHCnt
    rxHdr := by
      rw [Machine.storeHeaderByte, Machine.storeHeaderByte, ← h.rxHCnt]
      exact h.rxHdr.putAt x
    header := fun h' => nomatch hp.symm.trans h' }

theorem Alike.storePayloadByte (h : Alike a₀ b₀ a b) (x : Byte) :
    Alike a₀ b₀ (storePayloadByte x a) (storePayloadByte x b) :=
  { h with
    rxPCnt := congrArg (· + 1) h.rxPCnt
    rxPay := by
      rw [Machine.storePayloadByte, Machine.storePayloadByte, ← h.rxPCnt]
      exact h.rxPay.putAt x }

theorem Alike.storeCrcByte (h : Alike a₀ b₀ a b) (x : Byte) : Alike a₀ b₀ (storeCrcByte x a) (storeCrcByte x b) :=
  { h with
    rxCCnt := congrArg (· + 1) h.rxCCnt
    rxPCrc := by
      rw [Machine.storeCrcByte, Machine.storeCrcByte, ← h.rxCCnt]
      exact h.rxPCrc.putAt x }

theorem Alike.withValue (h : Alike a₀ b₀ a b) (v : Value) : Alike a₀ b₀ { a with rval := some v } { b with rval := some v } :=
  { h with rval := rfl }

theorem Alike.returnValue (h : Alike a₀ b₀ a b) (ret : Return) (p : List Byte) :
    SameEnd (Alike a₀ b₀) (returnValue ret p a) (returnValue ret p b) := by
  have ho : b.cfg.payloadOrder = a.cfg.payloadOrder := congrArg _ h.cfg.symm
  cases ret with
  | nothing => exact .next h
  | payload => exact .next (h.withValue _)
  | word =>
    simp only [Machine.returnValue, ho]
    cases bytesToU16 a.cfg.payloadOrder p with
    | some v => exact .next (h.withValue _)
    | none => exact .short h
  | ticks =>
    simp only [Machine.returnValue, ho]
    cases bytesToU32 a.cfg.payloadOrder p with
    | some v => exact .next (h.withValue _)
    | none => exact .short h

theorem Alike.finish (h : Alike a₀ b₀ a b) (h8 : 8 ≤ a.rxHCnt) (hl : a.rxPLen ≤ a.rxPCnt)
    (hc : a.rxPLen = 0 ∨ 2 ≤ a.rxCCnt) : SameEnd (Alike a₀ b₀) (finish a) (finish b) := by
  rw [Machine.finish, Machine.finish, ← h.decodedFrame h8 hl hc, ← h.ret]
  refine Alike.returnValue ?_ _ _
  exact { h with ph := rfl, ret := rfl, res := rfl, rframe := rfl, header := fun h => nomatch h }

theorem Alike.headerDone (h : Alike a₀ b₀ a b) (h8 : 8 ≤ a.rxHCnt) :
    SameEnd (Alike a₀ b₀) (headerDone a) (headerDone b) := by
  have hf := h.headerFlags h8
  simp only [Machine.headerDone, ← h.cfg, ← h.rxHeaderBytes h8, ← h.rxHeaderCrc h8, ← h.hdrByte (i := 3) (by omega),
    ← h.hdrByte (i := 5) (by omega)]
  split
  · exact .next (hf.raise _)
  · split
    · exact .next (hf.raise _)
    · split
      · exact Alike.finish { hf with rxPLen := rfl } h8 (Nat.zero_le _) (.inl rfl)
      · exact .next { hf with rxPLen := rfl, ph := rfl, header := fun _ => h8 }

theorem Alike.payloadDone (h : Alike a₀ b₀ a b) (h8 : 8 ≤ a.rxHCnt) (hl : a.rxPLen ≤ a.rxPCnt) (hc : 2 ≤ a.rxCCnt) :
    SameEnd (Alike a₀ b₀) (payloadDone a) (payloadDone b) := by
  have hf := h.payloadFlags hl hc
  simp only [Machine.payloadDone, ← h.cfg, ← h.rxPayloadBytes hl, ← h.rxPayloadCrc hc]
  split
  · exact .next (hf.raise _)
  · exact hf.finish h8 hl (.inr hc)

theorem Alike.onHeaderByte (h : Alike a₀ b₀ a b) (x : Byte) (hp : a.ph = .rxHeader) :
    SameEnd (Alike a₀ b₀) (onHeaderByte x a) (onHeaderByte x b) := by
  have hs := h.storeHeaderByte x hp
  have hn := h.rxHCnt
  rcases onHeaderByte_cases x a with ⟨hc, ho⟩ | ⟨hc, ho⟩ <;> rcases onHeaderByte_cases x b with ⟨hc', ho'⟩ | ⟨hc', ho'⟩
  · rw [ho, ho']
    exact .next hs
  · omega
  · omega
  · rw [ho, ho']
    exact hs.headerDone hc

/-- The counts agree, so both parsers are at the same place of the payload block; the other pairs of cases cannot be. -/
theorem Alike.onPayloadByte (h : Alike a₀ b₀ a b) (x : Byte) (hp : a.ph = .rxPayload) :
    SameEnd (Alike a₀ b₀) (onPayloadByte x a) (onPayloadByte x b) := by
  have hl := h.rxPLen
  have hn := h.rxPCnt
  have hm := h.rxCCnt
  rcases onPayloadByte_cases x a with ⟨hc, ho⟩ | ⟨hlen, hc, ho⟩ | ⟨hlen, hc, ho⟩ <;>
    rcases onPayloadByte_cases x b with ⟨hc', ho'⟩ | ⟨hlen', hc', ho'⟩ | ⟨hlen', hc', ho'⟩ <;> try omega
  · rw [ho, ho']
    exact .next (h.storePayloadByte x)
  · rw [ho, ho']
    exact .next (h.storeCrcByte x)
  · rw [ho, ho']
    exact (h.storeCrcByte x).payloadDone (h.header hp) hlen hc

theorem Alike.onByte (h : Alike a₀ b₀ a b) (x : Byte) : SameEnd (Alike a₀ b₀) (onByte x a) (onByte x b) := by
  cases hp : a.ph <;> simp only [Machine.onByte, ← h.ph, hp]
  case rxHeader => exact h.onHeaderByte x hp
  case rxPayload => exact h.onPayloadByte x hp
  all_goals exact .next h

theorem Alike.onRead (h : Alike a₀ b₀ a b) (x : ReadAnswer) (rest : List ReadAnswer) :
    SameEnd (Alike a₀ b₀) (onRead x rest a) (onRead x rest b) := by
  cases x with
  | byte c => exact (h.read _ rest).onByte c
  | noData => exact .next ((h.read _ rest).raise _)
  | ioError => exact .next ((h.read _ rest).raise _)

theorem Alike.receive (h : Alike a₀ b₀ a b) (as : List ReadAnswer) :
    SameEnd (Alike a₀ b₀) (receive as a) (receive as b) := by
  induction as generalizing a b with
  | nil => exact .next h
  | cons x rest ih =>
    rw [receive_cons, receive_cons]
    have hr := h.onRead x rest
    generalize Machine.onRead x rest a = o, Machine.onRead x rest b = p at hr ⊢
    cases hr with
    | next hn =>
      simp only [← hn.ph]
      split
      · exact .next hn
      · exact ih hn
    | short hs => exact .short hs

end

/-! ### Transactions that end alike -/

/-- A transaction that was accepted in `s` and got no response: the phase and result it was left with, and its events. -/
structure NoResponse (s t : State) (ph : Phase) (res : Option ResultCode) (es : List Event) : Prop where
  seq : t.seq = s.seq + 1
  ph : t.ph = ph
  res : t.res = res
  rval : t.rval = none
  rframe : t.rframe = none
  trace : t.trace = s.trace ++ es
  hcrcValid : t.hcrcValid = false
  pcrcValid : t.pcrcValid = false

theorem NoResponse.sameOutcome {a a' b b' : State} {ph : Phase} {res : Option ResultCode} {es : List Event}
    (ha : NoResponse a a' ph res es) (hb : NoResponse b b' ph res es) (hs : a.seq = b.seq) : SameOutcome a a' b b' where
  seq := by rw [ha.seq, hb.seq, hs]
  ph := by rw [ha.ph, hb.ph]
  res := by rw [ha.res, hb.res]
  rval := by rw [ha.rval, hb.rval]
  rframe := by rw [ha.rframe, hb.rframe]
  events := by rw [newEvents_append ha.trace, newEvents_append hb.trace]
  hcrcValid := by rw [ha.hcrcValid, hb.hcrcValid]
  pcrcValid := by rw [ha.pcrcValid, hb.pcrcValid]
  hcrc := by simp [ha.hcrcValid]
  pcrc := by simp [ha.pcrcValid]

/-- The transaction is accepted and leaves a state that got no response. -/
def EndsWithoutResponse (r : Request) (ret : Return) (s : State) (ph : Phase) (res : Option ResultCode) (es : List Event) : Prop :=
  ∃ t, xact r ret s = .next t ∧ NoResponse s t ph res es

theorem EndsWithoutResponse.sameEnd {r : Request} {ret : Return} {a b : State} {ph : Phase} {res : Option ResultCode}
    {es : List Event} (ha : EndsWithoutResponse r ret a ph res es) (hb : EndsWithoutResponse r ret b ph res es)
    (hs : a.seq = b.seq) : SameEnd (SameOutcome a · b ·) (xact r ret a) (xact r ret b) := by
  obtain ⟨a', hxa, ha⟩ := ha
  obtain ⟨b', hxb, hb⟩ := hb
  rw [hxa, hxb]
  exact .next (ha.sameOutcome hb hs)

section
variable {r : Request} {ret : Return} {s : State}

theorem xact_purgeUnanswered (hi : s.ph = .idle) (hp : s.line.purges = []) :
    EndsWithoutResponse r ret s .purging none [] :=
  ⟨_, (xact_idle hi).trans (transact_unanswered hp), by constructor <;> simp⟩

theorem xact_purgeFailed {ps : List PurgeAnswer} (hi : s.ph = .idle) (hp : s.line.purges = .ioError :: ps) :
    EndsWithoutResponse r ret s .idle (some .transportError) [.purge .ioError] :=
  ⟨_, (xact_idle hi).trans (transact_purgeFailed hp), by constructor <;> simp⟩

/-- After a successful purge the request that was accepted is sent. -/
theorem xact_purged {ps : List PurgeAnswer} (hi : s.ph = .idle) (hp : s.line.purges = .ok :: ps) :
    xact r ret s = sendAndReceive { loadRequest s.seq r (record (.purge .ok)
      { accept r ret s with line := { s.line with purges := ps, rx := s.line.later.headD [], later := s.line.later.tail } })
        with ph := .sending } := by
  rw [xact_idle hi, transact_purged (s := accept r ret s) (op := latch s.seq r) hp rfl, request_latch, seq_latch]
  rfl

theorem xact_writeUnanswered {ps : List PurgeAnswer} (hi : s.ph = .idle) (hp : s.line.purges = .ok :: ps)
    (hw : s.line.writes = []) : EndsWithoutResponse r ret s .sending none [.purge .ok] :=
  ⟨_, (xact_purged hi hp).trans (sendAndReceive_unanswered hw), by constructor <;> simp⟩

theorem xact_writeFailed {ps : List PurgeAnswer} {x : WriteAnswer} {ws : List WriteAnswer} (hi : s.ph = .idle)
    (hp : s.line.purges = .ok :: ps) (hw : s.line.writes = x :: ws) (hx : x ≠ .written (encodeRequest s.seq r).length) :
    EndsWithoutResponse r ret s .idle (some .transportError) [.purge .ok, .tx (encodeRequest s.seq r) x] := by
  refine ⟨_, (xact_purged hi hp).trans (sendAndReceive_failed hw ?_), ?_⟩
  · simpa [txFrame] using hx
  · constructor <;> simp [txFrame]

end

/-- Two parsers that have just been started hold nothing yet. -/
theorem alike_requestSent {a b : State} (h : SameForCommands a b) (r : Request) (ret : Return) :
    Alike a b (requestSent r ret a) (requestSent r ret b) where
  cfg := h.cfg
  seq := congrArg (· + 1) h.seq
  ph := rfl
  ret := rfl
  res := rfl
  rval := rfl
  rframe := rfl
  events := ⟨_, rfl, by rw [requestSent, h.seq]⟩
  hcrcValid := rfl
  pcrcValid := rfl
  hcrc := fun h => nomatch h
  pcrc := fun h => nomatch h
  rxHCnt := rfl
  rxPLen := rfl
  rxPCnt := rfl
  rxCCnt := rfl
  rxHdr := sameStored_zero _ _
  rxPay := sameStored_zero _ _
  rxPCrc := sameStored_zero _ _
  header := fun h => nomatch h

/-- Two transactions with the same number, from the same configuration and with the same answers to come, end alike. -/
theorem xact_sameEnd {a b : State} (h : SameForCommands a b) (hi : a.ph = .idle) (r : Request) (ret : Return) :
    SameEnd (SameOutcome a · b ·) (xact r ret a) (xact r ret b) := by
  have hi' : b.ph = .idle := h.ph.symm.trans hi
  cases hp : a.line.purges with
  | nil => exact (xact_purgeUnanswered hi hp).sameEnd (xact_purgeUnanswered hi' (h.purges ▸ hp)) h.seq
  | cons p ps =>
    have hp' := h.purges ▸ hp
    cases p with
    | ioError => exact (xact_purgeFailed hi hp).sameEnd (xact_purgeFailed hi' hp') h.seq
    | ok =>
      cases hw : a.line.writes with
      | nil => exact (xact_writeUnanswered hi hp hw).sameEnd (xact_writeUnanswered hi' hp' (h.writes ▸ hw)) h.seq
      | cons x ws =>
        have hw' := h.writes ▸ hw
        by_cases hx : x = .written (encodeRequest a.seq r).length
        · rw [xact_sent hi (by rw [hp]; rfl) (by rw [hw, hx]; rfl), xact_sent hi' (by rw [hp']; rfl)
            (by rw [hw', hx, h.seq]; rfl), h.later]
          exact ((alike_requestSent h r ret).receive _).imp fun _ _ => Alike.outcome
        · have hb := xact_writeFailed (ret := ret) hi' hp' hw' (h.seq ▸ hx)
          exact (xact_writeFailed hi hp hw hx).sameEnd (h.seq ▸ hb) h.seq

/-- Settles O54: a command is the transaction of a request that only the configuration shapes, and what the parser reads of its buffers
it has stored there since it was started. -/
theorem earlierCommandsActOnlyThroughSeq : Obligations.EarlierCommandsActOnlyThroughSeq := by
  intro i a b a' h hi hc hw ho
  obtain ⟨r, hr⟩ := isCommand_request a.cfg hc
  have he := xact_sameEnd h hi r (returnOf i)
  rw [← exec_command hw hr, ← exec_command hw (h.cfg ▸ hr)] at he
  generalize exec i a = o, exec i b = p at ho he ⊢
  cases he with
  | next he =>
    cases ho
    exact ⟨_, .inl ⟨rfl, rfl⟩, he⟩
  | short he =>
    cases ho
    exact ⟨_, .inr ⟨rfl, rfl⟩, he⟩

end Sys2Proof.Machine
end

section
/-! PROOF. The transport as the block's only memory (R52, R63, R64): bytes nobody asks for wait there (R216), bytes a parser asks for are
read one at a time (R136), a successful purge discards what waits (R147), and the calls one command makes come in one order (R63). -/

namespace Sys2Proof.Machine

/-! ### Bytes that arrive -/

/-- Settles O28: a response is the arrival of its bytes, and no parser is asking for them. -/
theorem bytesWaitWhenNoReadIsOutstanding : Obligations.BytesWaitWhenNoReadIsOutstanding := by
  refine ⟨fun i s hc hw h1 h2 => ?_, fun bs s h1 h2 => arrive_waiting h1 h2⟩
  rw [exec_response (seq := s.seq) hw hc]
  exact arrive_waiting h1 h2

/-- With no other input at hand, the arrival of bytes at a parser is a run of the machine from where they wait behind what the transport
held. -/
theorem run_arrive (bs : List Byte) {s : State} (hp : s.ph = .rxHeader ∨ s.ph = .rxPayload) (hi : s.inbox = []) :
    ∃ k, k ≤ s.line.rx.length + bs.length ∧
      Host.Core.run Sys2Proof.core k { s with line := { s.line with rx := s.line.rx ++ delivers bs } } = arrive bs s := by
  obtain ⟨k, hk, _, hrun⟩ := receive_ticks (s := { s with line := { s.line with rx := s.line.rx ++ delivers bs } }) hp rfl
  refine ⟨k, by simpa [delivers] using hk, ?_⟩
  rw [arrive_receiving hp]
  exact hrun.run hi

/-- Settles O51: a response is the arrival of its bytes, and the parser over the answers at hand takes one small step for each. -/
theorem arrivedBytesAreReadOneAtATime : Obligations.ArrivedBytesAreReadOneAtATime := by
  refine ⟨fun i s hc hw hp hi => ?_, fun bs s hp hi => run_arrive bs hp hi⟩
  rw [exec_response (seq := s.seq) hw hc]
  exact run_arrive _ hp hi

/-! ### What a purge discards -/

/-- After a successful purge the transaction goes on from a state in which nothing of the receive side before it is left. -/
theorem xact_setRx_of_purged {r : Request} {ret : Return} {s : State} (stale : List ReadAnswer) (hi : s.ph = .idle)
    (hp : s.line.purges.head? = some .ok) : xact r ret { s with line := { s.line with rx := stale } } = xact r ret s := by
  obtain ⟨ps, hps⟩ := List.head?_eq_some_iff.mp hp
  rw [xact_purged hi hps, xact_purged (s := { s with line := { s.line with rx := stale } }) hi hps]
  rfl

/-- Settles O59: the request of a command depends on the configuration alone, and its transaction begins with the purge. -/
theorem purgeDiscardsWhatWasReceivedBefore : Obligations.PurgeDiscardsWhatWasReceivedBefore := by
  intro i s r stale ha hp
  rw [exec_command ha.wf ha.request, exec_command (s := { s with line := { s.line with rx := stale } }) ha.wf ha.request]
  exact xact_setRx_of_purged stale ha.idle hp

/-! ### The order of the calls -/

/-- From `s` to `t` the block made no call but `T.read1`, and made it at most `n` times. -/
def OnlyReadsTo (n : Nat) (s t : State) : Prop :=
  ∃ reads : List ReadAnswer, reads.length ≤ n ∧ t.trace = s.trace ++ reads.map .rx

theorem OnlyReadsTo.refl (s : State) : OnlyReadsTo 0 s s :=
  ⟨[], le_rfl, by simp⟩

theorem OnlyReadsTo.cons {n : Nat} {s t u : State} {a : ReadAnswer} (h : t.trace = s.trace ++ [.rx a])
    (g : OnlyReadsTo n t u) : OnlyReadsTo (n + 1) s u := by
  obtain ⟨reads, hn, hu⟩ := g
  exact ⟨a :: reads, by simpa using hn, by simp [hu, h]⟩

/-- A parser's small step that leaves a state is one answered call of `T.read1`. -/
theorem tick_is_read {s t : State} {o : Result} (hp : s.ph = .rxHeader ∨ s.ph = .rxPayload) (h : tick s = o)
    (ho : stateOf o = some t) : ∃ a rest, onRead a rest s = o := by
  rw [tick_receiving hp] at h
  obtain ⟨p, hr, _⟩ := stateOf_getD_stuck (h ▸ ho)
  obtain ⟨a, rest, _, rfl⟩ := readPhase_cases hr
  exact ⟨a, rest, by rw [← h, hr]; rfl⟩

theorem onRead_trace {a : ReadAnswer} {rest : List ReadAnswer} {s t : State} (h : stateOf (onRead a rest s) = some t) :
    t.trace = s.trace ++ [.rx a] :=
  congrArg (·.trace) (onRead_surroundings h)

/-- A run of small steps from a parser calls nothing but `T.read1`, once in each step. -/
theorem Ticks.onlyReadsTo {k : Nat} {s t : State} {o : Result} (h : Ticks k s o)
    (hp : s.ph ≠ .idle → s.ph = .rxHeader ∨ s.ph = .rxPayload) (ho : stateOf o = some t) : OnlyReadsTo k s t := by
  induction h with
  | zero s =>
    cases ho
    exact .refl _
  | stop hn hs _ =>
    obtain ⟨a, rest, rfl⟩ := tick_is_read (hp hn) hs ho
    exact .cons (onRead_trace ho) (.refl t)
  | more hn hs _ ih =>
    obtain ⟨a, rest, hr⟩ := tick_is_read (hp hn) hs rfl
    exact .cons (onRead_trace (by rw [hr]; rfl)) (ih (fun ht => (onRead_advances (hp hn) hr ht).receiving) ho)

/-- From `s` to `t` the block made the calls of one command with the request frame `f`, in their order, with at most 520 reads
(R63, R195). -/
def CommandEventsTo (f : List Byte) (s t : State) : Prop :=
  ∃ es, t.trace = s.trace ++ es ∧ CommandEvents f es ∧ es.countP Event.isRx ≤ 520

/-- A transaction that got no response made the calls before the flush, none of them a read. -/
theorem EndsWithoutResponse.commandEventsTo {r : Request} {ret : Return} {s t : State} {ph : Phase} {res : Option ResultCode}
    {f : List Byte} {es : List Event} (h : EndsWithoutResponse r ret s ph res es) (ht : stateOf (xact r ret s) = some t)
    (he : CommandEvents f es) (hn : es.countP Event.isRx = 0) : CommandEventsTo f s t := by
  obtain ⟨u, hx, hu⟩ := h
  rw [hx] at ht
  cases ht
  exact ⟨es, hu.trace, he, by omega⟩

/-- A parser that has just been started asks for no more than the longest response (R85). -/
theorem readsLeft_requestSent (r : Request) (ret : Return) (s : State) : readsLeft (requestSent r ret s) = 520 := rfl

/-- Once the request was taken whole, the flush has been called and the calls to come are the parser's. -/
theorem receive_commandEventsTo {r : Request} {ret : Return} {s t : State}
    (h : stateOf (receive (s.line.later.headD []) (requestSent r ret s)) = some t) :
    CommandEventsTo (encodeRequest s.seq r) s t := by
  obtain ⟨k, _, hk, hrun⟩ := receive_ticks (s := requestSent r ret s) (.inl rfl) rfl
  obtain ⟨reads, hn, ht⟩ := hrun.onlyReadsTo (fun _ => .inl rfl) h
  rw [readsLeft_requestSent] at hk
  refine ⟨_, ht.trans (List.append_assoc ..), .sent (reads.map .rx) ?_, ?_⟩
  · intro e he
    obtain ⟨a, _, rfl⟩ := List.mem_map.mp he
    exact ⟨a, rfl⟩
  · simpa [Event.isRx, Function.comp_def] using hn.trans hk

/-- The calls of a transaction, by what the purge and the write are answered (R63). -/
theorem xact_commandEventsTo {r : Request} {ret : Return} {s t : State} (hi : s.ph = .idle)
    (h : stateOf (xact r ret s) = some t) : CommandEventsTo (encodeRequest s.seq r) s t := by
  cases hp : s.line.purges with
  | nil => exact (xact_purgeUnanswered hi hp).commandEventsTo h .unanswered rfl
  | cons p ps =>
    cases p with
    | ioError => exact (xact_purgeFailed hi hp).commandEventsTo h .purgeFailed rfl
    | ok =>
      cases hw : s.line.writes with
      | nil => exact (xact_writeUnanswered hi hp hw).commandEventsTo h .purged rfl
      | cons x ws =>
        by_cases hx : x = .written (encodeRequest s.seq r).length
        · rw [xact_sent hi (by rw [hp]; rfl) (by rw [hw, hx]; rfl)] at h
          exact receive_commandEventsTo h
        · exact (xact_writeFailed hi hp hw hx).commandEventsTo h (.writeFailed x hx) rfl

/-- Settles O40: an accepted command is its transaction. -/
theorem eventsOfACommandComeInOrder : Obligations.EventsOfACommandComeInOrder := by
  intro i s t r ha h
  rw [exec_command ha.wf ha.request] at h
  obtain ⟨es, ht, he, hn⟩ := xact_commandEventsTo ha.idle h
  rw [newEvents_append ht]
  exact ⟨ht, he, hn⟩

end Sys2Proof.Machine
end

section
/-! PROOF. The bytes of words and of 32-bit values, and the words and values read back from bytes (R12, R56, R89, R90), in both payload
orders. -/

namespace Sys2Proof.Machine

/-! ### A word and its two bytes -/

@[simp] theorem hiByte_wordOf (hi lo : Byte) : hiByte (wordOf hi lo) = hi :=
  BitVec.extractLsb'_append_eq_left

@[simp] theorem loByte_wordOf (hi lo : Byte) : loByte (wordOf hi lo) = lo :=
  BitVec.extractLsb'_append_eq_right

@[simp] theorem be16_wordOf (hi lo : Byte) : be16 (wordOf hi lo) = [hi, lo] := by
  simp [be16]

theorem bytesToU16_wordBytes (o : PayloadOrder) (w : Word) (rest : List Byte) :
    bytesToU16 o (wordBytes o w ++ rest) = some w := by
  cases o <;> exact congrArg some (wordOf_hi_lo w)

theorem bytesToWords_wordBytes (o : PayloadOrder) (w : Word) (rest : List Byte) :
    bytesToWords o (wordBytes o w ++ rest) = w :: bytesToWords o rest := by
  cases o <;> exact congrArg (· :: bytesToWords _ rest) (wordOf_hi_lo w)

theorem bytesToU16_eq_none_iff (o : PayloadOrder) (p : List Byte) : bytesToU16 o p = none ↔ p.length < 2 := by
  match p with
  | [] | [_] => simp [bytesToU16]
  | _ :: _ :: _ => cases o <;> simp [bytesToU16]

/-! ### A list of words -/

theorem wordsToBytes_cons (o : PayloadOrder) (w : Word) (ws : List Word) :
    wordsToBytes o (w :: ws) = wordBytes o w ++ wordsToBytes o ws := rfl

theorem wordsToBytes_cons_ne_nil (o : PayloadOrder) (w : Word) (ws : List Word) : wordsToBytes o (w :: ws) ≠ [] := by
  cases o <;> exact List.cons_ne_nil _ _

/-- A list of words is read back word by word (R89). -/
theorem bytesToWords_wordsToBytes (o : PayloadOrder) (ws : List Word) : bytesToWords o (wordsToBytes o ws) = ws := by
  induction ws with
  | nil => rfl
  | cons w ws ih => rw [wordsToBytes_cons, bytesToWords_wordBytes, ih]

/-! ### A 32-bit value and its two words -/

theorem hiWord_append_loWord (v : Sys2Proof.Ticks) : hiWord v ++ loWord v = v :=
  BitVec.extractLsb'_append_extractLsb'_eq_extractLsb' rfl |>.trans (by simp)

/-- Bits taken out of bits taken out of a number are bits of the number. -/
theorem extractLsb'_of_extractLsb' {w : Nat} (x : BitVec w) {s n t m : Nat} (h : t + m ≤ n) :
    (x.extractLsb' s n).extractLsb' t m = x.extractLsb' (s + t) m := by
  refine BitVec.eq_of_getLsbD_eq fun i hi => ?_
  have hn : t + i < n := by omega
  simp [hi, hn, Nat.add_assoc]

/-- The bytes of the two words are the four bytes of the value (R11, R12). -/
theorem bytes_of_words (v : Sys2Proof.Ticks) :
    hiByte (hiWord v) = v.extractLsb' 24 8 ∧ loByte (hiWord v) = v.extractLsb' 16 8 ∧
    hiByte (loWord v) = v.extractLsb' 8 8 ∧ loByte (loWord v) = v.extractLsb' 0 8 :=
  ⟨extractLsb'_of_extractLsb' v (by decide), extractLsb'_of_extractLsb' v (by decide),
    extractLsb'_of_extractLsb' v (by decide), extractLsb'_of_extractLsb' v (by decide)⟩

/-- In the order `LE` a 32-bit value is sent low word first (R89). -/
theorem u32ToBytes_le (v : Sys2Proof.Ticks) : u32ToBytes .le v = wordBytes .le (loWord v) ++ wordBytes .le (hiWord v) := by
  simp [u32ToBytes, le32, wordBytes, le16, bytes_of_words v]

/-- In the order `BE` a 32-bit value is sent high word first (R89). -/
theorem u32ToBytes_be (v : Sys2Proof.Ticks) : u32ToBytes .be v = wordBytes .be (hiWord v) ++ wordBytes .be (loWord v) := by
  simp [u32ToBytes, be32, wordBytes, be16, bytes_of_words v]

theorem u32ToBytes_ne_nil (o : PayloadOrder) (v : Sys2Proof.Ticks) : u32ToBytes o v ≠ [] := by
  cases o <;> exact List.cons_ne_nil _ _

/-- A 32-bit value is read back from its two words (R90). -/
theorem bytesToU32_u32ToBytes (o : PayloadOrder) (v : Sys2Proof.Ticks) (rest : List Byte) :
    bytesToU32 o (u32ToBytes o v ++ rest) = some v := by
  cases o
  case le => simp [u32ToBytes_le, wordBytes, le16, bytesToU32, hiWord_append_loWord]
  case be => simp [u32ToBytes_be, wordBytes, be16, bytesToU32, hiWord_append_loWord]

theorem bytesToU32_payload (o : PayloadOrder) (v : Sys2Proof.Ticks) : bytesToU32 o (u32ToBytes o v) = some v := by
  simpa using bytesToU32_u32ToBytes o v []

theorem bytesToU32_eq_none_iff (o : PayloadOrder) (p : List Byte) : bytesToU32 o p = none ↔ p.length < 4 := by
  match p with
  | [] | [_] | [_, _] | [_, _, _] => simp [bytesToU32]
  | _ :: _ :: _ :: _ :: _ => cases o <;> simp [bytesToU32]

/-- Settles O5: word by word, a 32-bit value as its two words. -/
theorem payloadOrdersReadBackWhatTheyWrite : Obligations.PayloadOrdersReadBackWhatTheyWrite := by
  refine ⟨fun v => ⟨u32ToBytes_le v, u32ToBytes_be v⟩, fun o w ws rest => ?_, bytesToU32_u32ToBytes,
    fun o ws => ⟨bytesToWords_wordsToBytes o ws, wordsToBytes_length o ws⟩,
    fun o p => ⟨bytesToU16_eq_none_iff o p, bytesToU32_eq_none_iff o p⟩⟩
  rw [wordsToBytes_cons, List.append_assoc, bytesToU16_wordBytes]

end Sys2Proof.Machine
end

section
/-! PROOF. The request frame field by field (R81, R82, R85, R87), what the fifteen commands send (R91), and a request frame read back. -/

namespace Sys2Proof.Machine

/-! ### The control byte -/

/-- The fields of the control byte: two bits that are 0, the sequence nibble, the direction (R81). -/
theorem ctrlByte_fields (d : Dir) (seq : Nibble) :
    (ctrlByte d seq).extractLsb' 6 2 = 0 ∧ (ctrlByte d seq).extractLsb' 2 4 = seq ∧
    (ctrlByte d seq).extractLsb' 0 2 = (dirCode d).setWidth 2 := by
  revert seq
  cases d <;> decide

/-- The control byte as a number: the nibble stands two bits up, clear of the direction (R87). -/
theorem toNat_ctrlByte (d : Dir) (seq : Nibble) : (ctrlByte d seq).toNat = (dirCode d).toNat + 4 * seq.toNat := by
  revert seq
  cases d <;> decide

@[simp] theorem decodeSeq_ctrlByte (d : Dir) (seq : Nibble) : decodeSeq (ctrlByte d seq) = seq :=
  (ctrlByte_fields d seq).2.1

/-- The direction bits of a control byte are read back (R81, R92). -/
theorem decodeDir_ctrlByte (d : Dir) (seq : Nibble) : decodeDir ((ctrlByte d seq).extractLsb' 0 2) = some d := by
  rw [(ctrlByte_fields d seq).2.2]
  cases d <;> rfl

/-! ### The two blocks of a request -/

theorem encodeRequest_take (seq : Nibble) (r : Request) :
    (encodeRequest seq r).take 8 = withCrc (requestHeader seq r) := rfl

theorem encodeRequest_drop (seq : Nibble) (r : Request) : (encodeRequest seq r).drop 8 = payloadBlock r.pay := rfl

/-- A payload that is absent and one that is empty give no payload block (R82). -/
theorem payloadBlock_empty {pay : Option (List Byte)} (h : pay.getD [] = []) : payloadBlock pay = [] := by
  rcases pay with _ | _ | ⟨b, bs⟩
  · rfl
  · rfl
  · cases h

theorem payloadBlock_some {p : List Byte} (h : p ≠ []) : payloadBlock (some p) = withCrc p := by
  cases p with
  | nil => exact absurd rfl h
  | cons b bs => rfl

/-- The three kinds of operands the encoder is given (R132, R85): a read, a write of nothing, a write with a payload. -/
theorem request_cases {r : Request} (h : r.wf = true) :
    (r.dir = .read ∧ r.pay = none) ∨ (r.dir = .write ∧ r.wc = 0 ∧ r.pay.getD [] = []) ∨
    (r.dir = .write ∧ r.wc ≠ 0 ∧ ∃ p, p ≠ [] ∧ r.pay = some p ∧ p.length = 2 * r.wc.toNat) := by
  obtain ⟨dir, idx, off, wc, pay⟩ := r
  cases dir <;> cases pay
  case read.none => exact .inl ⟨rfl, rfl⟩
  case read.some p => cases h
  case write.none => exact .inr (.inl ⟨rfl, by simpa [Request.wf] using h, rfl⟩)
  case write.some p =>
    have hl : p.length = 2 * wc.toNat := by simpa [Request.wf] using h
    by_cases h0 : wc = 0
    · exact .inr (.inl ⟨rfl, h0, List.eq_nil_of_length_eq_zero (by simpa [h0] using hl)⟩)
    · have hne : p ≠ [] := by
        rintro rfl
        exact h0 (BitVec.eq_of_toNat_eq (by simpa using hl.symm))
      exact .inr (.inr ⟨rfl, h0, p, hne, rfl, hl⟩)

/-- Settles O6: the first eight bytes are the header block, and the control byte is `ctrlByte`. -/
theorem requestHeaderBlockIsLaidOut : Obligations.RequestHeaderBlockIsLaidOut := by
  intro seq r
  obtain ⟨hzero, hseq, hdir⟩ := ctrlByte_fields r.dir seq
  have hnum := toNat_ctrlByte r.dir seq
  have hlt := seq.isLt
  refine ⟨ctrlByte r.dir seq, encodeRequest_take seq r, hzero, hseq, ?_⟩
  cases hd : r.dir <;> rw [hd] at hdir hnum
  case read =>
    have hnum : (ctrlByte .read seq).toNat = 1 + 4 * seq.toNat := hnum
    exact ⟨hdir, hnum, by omega⟩
  case write =>
    have hnum : (ctrlByte .write seq).toNat = 2 + 4 * seq.toNat := hnum
    exact ⟨hdir, hnum, by omega⟩

/-- Settles O8: what follows the header block is the payload block, by the kind of the operands. -/
theorem requestPayloadBlockFollowsTheHeader : Obligations.RequestPayloadBlockFollowsTheHeader := by
  intro seq r hw
  rw [encodeRequest_drop]
  refine ⟨fun hd h0 => ?_, fun hn => ?_, encodeRequest_length_le hw seq⟩
  · rcases request_cases hw with ⟨hr, _⟩ | ⟨_, hz, _⟩ | ⟨_, _, p, hne, hp, hl⟩
    · cases hd.symm.trans hr
    · exact absurd hz h0
    · exact ⟨p, hp, hl, by rw [hp, payloadBlock_some hne, withCrc]⟩
  · rcases request_cases hw with ⟨_, hp⟩ | ⟨_, _, hp⟩ | ⟨hd, h0, _⟩
    · rw [hp]; rfl
    · exact payloadBlock_empty hp
    · rcases hn with hn | hn
      · cases hd.symm.trans hn
      · exact absurd hn h0

/-! ### What the commands send -/

/-- The frame of a request without a payload (R85). -/
theorem encodeRequest_noPayload {r : Request} (seq : Nibble) (h : r.pay = none) :
    encodeRequest seq r = withCrc (requestHeader seq r) := by
  rw [encodeRequest, h, payloadBlock_empty rfl, List.append_nil]

/-- The frame of a request with a payload (R82, R85). -/
theorem encodeRequest_payload {r : Request} {p : List Byte} (seq : Nibble) (h : r.pay = some p) (hp : p ≠ []) :
    encodeRequest seq r = withCrc (requestHeader seq r) ++ withCrc p := by
  rw [encodeRequest, h, payloadBlock_some hp]

/-- A command's frame is the frame of its request (R91). -/
theorem encode_command {cfg : Config} {i : Instr} {r : Request} (seq : Nibble) (h : i.request cfg = some r) :
    encode cfg seq i = encodeRequest seq r := by
  cases i <;> simp only [Instr.request, Option.some.injEq, reduceCtorEq] at h <;> subst h <;> rfl

/-- A command that writes one word to an address sends the word behind the header of that address (R91). -/
theorem encode_wordWrite {cfg : Config} {i : Instr} {v : Word} (seq : Nibble) (a : Address)
    (h : i.request cfg = some (wordRequest cfg.payloadOrder a v)) :
    encode cfg seq i = withCrc (requestHeader seq (wordRequest cfg.payloadOrder a v)) ++
      withCrc (wordsToBytes cfg.payloadOrder [v]) := by
  rw [encode_command seq h]
  exact encodeRequest_payload seq rfl (wordsToBytes_cons_ne_nil _ _ _)

/-- A command that writes a tick value to an address sends the value behind the header of that address (R91). -/
theorem encode_ticksWrite {cfg : Config} {i : Instr} {v : Sys2Proof.Ticks} (seq : Nibble) (a : Address)
    (h : i.request cfg = some (ticksRequest cfg.payloadOrder a v)) :
    encode cfg seq i = withCrc (requestHeader seq (ticksRequest cfg.payloadOrder a v)) ++
      withCrc (u32ToBytes cfg.payloadOrder v) := by
  rw [encode_command seq h]
  exact encodeRequest_payload seq rfl (u32ToBytes_ne_nil _ _)

/-- A command that reads at an address sends the header of that address alone (R91). -/
theorem encode_read {cfg : Config} {i : Instr} (seq : Nibble) (a : Address) (wc : Byte)
    (h : i.request cfg = some (readRequest a wc)) :
    encode cfg seq i = withCrc (requestHeader seq (readRequest a wc)) := by
  rw [encode_command seq h]
  exact encodeRequest_noPayload seq rfl

/-- Settles O9: each command is a read, a write of words or a write of a tick value, at its address of the source's map. -/
theorem commandsSendTheirMappedRequests : Obligations.CommandsSendTheirMappedRequests := by
  rintro ⟨⟩ seq rfl
  refine ⟨fun idx off wc => encode_read seq ⟨idx, off⟩ wc rfl, fun idx off ws => ?noWords, fun idx off wc w ws h0 => ?words,
    encode_wordWrite seq RegMap.source.writeAccess rfl, encode_wordWrite seq RegMap.source.bridge rfl,
    encode_wordWrite seq RegMap.source.bridge rfl, encode_wordWrite seq RegMap.source.home rfl,
    encode_wordWrite seq RegMap.source.stop rfl, encode_wordWrite seq RegMap.source.resetEvents rfl,
    encode_wordWrite seq RegMap.source.sync rfl, fun v => encode_ticksWrite seq RegMap.source.setMeasuredPosition rfl,
    fun v => encode_ticksWrite seq RegMap.source.goto rfl, encode_read seq RegMap.source.position constants.tickWords rfl,
    fun sel => encode_read seq ⟨RegMap.source.statusIndex, sel⟩ constants.regWords rfl,
    encode_read seq RegMap.source.firmware RegMap.source.firmwareWords rfl,
    encode_read seq RegMap.source.productInfo RegMap.source.productInfoWords rfl⟩
  case noWords =>
    rw [encode_command seq rfl]
    exact encodeRequest_noPayload seq rfl
  case words =>
    rw [encode_command seq rfl]
    exact encodeRequest_payload seq (if_neg h0) (wordsToBytes_cons_ne_nil _ _ _)

/-! ### A request read back -/

/-- A read request: the header block is all of it (R85). -/
theorem parseRequest_read {seq : Nibble} {r : Request} (rest : List Byte) (hd : r.dir = .read) (hp : r.pay = none) :
    parseRequest (withCrc (requestHeader seq r) ++ rest) = .ok ((seq, r), rest) := by
  obtain ⟨dir, idx, off, wc, pay⟩ := r
  subst hd hp
  simp [parseRequest, withCrc, requestHeader, be16, (ctrlByte_fields _ _).1, decodeDir_ctrlByte]

/-- A write request with word count 0: the header block is all of it (R85). -/
theorem parseRequest_emptyWrite {seq : Nibble} {r : Request} (rest : List Byte) (hd : r.dir = .write) (h0 : r.wc = 0)
    (hp : r.pay = none) : parseRequest (withCrc (requestHeader seq r) ++ rest) = .ok ((seq, r), rest) := by
  obtain ⟨dir, idx, off, wc, pay⟩ := r
  subst hd h0 hp
  simp [parseRequest, withCrc, requestHeader, be16, (ctrlByte_fields _ _).1, decodeDir_ctrlByte]

/-- A write request with a payload: as many bytes as the word count says, and two more (R82). -/
theorem parseRequest_write {seq : Nibble} {r : Request} {p : List Byte} (c : Word) (rest : List Byte) (hd : r.dir = .write)
    (h0 : r.wc ≠ 0) (hp : r.pay = some p) (hl : p.length = 2 * r.wc.toNat) :
    parseRequest (withCrc (requestHeader seq r) ++ (p ++ be16 c ++ rest)) = .ok ((seq, r), rest) := by
  obtain ⟨dir, idx, off, wc, pay⟩ := r
  subst hd hp
  have hz : ¬ wc = 0#8 := h0
  have hl : p.length = 2 * wc.toNat := hl
  simp [parseRequest, withCrc, requestHeader, be16, (ctrlByte_fields _ _).1, decodeDir_ctrlByte, hz, ← hl]

/-- A frame of well-formed operands is read back, but for the empty payload, which is sent as an absent one (R82, R132). -/
theorem parseRequest_encodeRequest (seq : Nibble) {r : Request} (rest : List Byte) (hw : r.wf = true) (hp : r.pay ≠ some []) :
    parseRequest (encodeRequest seq r ++ rest) = .ok ((seq, r), rest) := by
  rcases request_cases hw with ⟨hd, hn⟩ | ⟨hd, h0, hn⟩ | ⟨hd, h0, p, hne, hs, hl⟩
  · rw [encodeRequest_noPayload seq hn, parseRequest_read rest hd hn]
  · have hn : r.pay = none := by
      cases hpay : r.pay with
      | none => rfl
      | some p => exact absurd (by simpa [hpay] using hn) (hpay ▸ hp)
    rw [encodeRequest_noPayload seq hn, parseRequest_emptyWrite rest hd h0 hn]
  · rw [encodeRequest_payload seq hs hne, List.append_assoc]
    exact parseRequest_write (crc16 p) rest hd h0 hs hl

/-- Settles O11. -/
theorem requestOperandsAreReadBack : Obligations.RequestOperandsAreReadBack :=
  fun seq _ rest hw hp => parseRequest_encodeRequest seq rest hw hp

end Sys2Proof.Machine
end

section
/-! PROOF. A response read back from its bytes, and its bytes from what is read (R83, R84, R95), every instruction read back as its row
(R86, R91), and the two halves of `SYNC_POSITION` as steps (R97). -/

namespace Sys2Proof.Machine

/-! ### A response and its bytes -/

/-- What is decoded begins with a whole header block (R95). -/
theorem decodeResponse_hasBlock {bs tail : List Byte} {i : Instr} (h : decodeResponse bs = .ok (i, tail)) :
    ∃ hdr rest, bs = responseBlock hdr ++ rest := by
  unfold decodeResponse at h
  split at h
  · next b0 b1 b2 b3 b4 b5 b6 b7 rest =>
    exact ⟨⟨b0, b1, b2, b3, b4, b5, wordOf b6 b7⟩, rest, by simp [responseBlock, responseHeader]⟩
  · cases h

/-- The three ways bytes decode to a response (R84, R93): a header block with another status flag, one with word count 0, or one with
its payload and payload CRC. -/
theorem decodeResponse_cases {bs tail : List Byte} {i : Instr} (h : decodeResponse bs = .ok (i, tail)) :
    ∃ hdr : RspHeader,
      (hdr.status ≠ constants.statusOk ∧ i = .rspErr hdr ∧ bs = responseBlock hdr ++ tail) ∨
      (hdr.status = constants.statusOk ∧ hdr.wc = 0 ∧ i = .rspOk hdr [] none ∧ bs = responseBlock hdr ++ tail) ∨
      (hdr.status = constants.statusOk ∧ hdr.wc ≠ 0 ∧ ∃ p c, p.length = 2 * hdr.wc.toNat ∧ i = .rspOk hdr p (some c) ∧
        bs = responseBlock hdr ++ (p ++ be16 c ++ tail)) := by
  obtain ⟨hdr, rest, rfl⟩ := decodeResponse_hasBlock h
  rw [decodeResponse_block] at h
  refine ⟨hdr, ?_⟩
  split at h
  · next hs => cases h; exact .inl ⟨hs, rfl, rfl⟩
  · next hs =>
    split at h
    · next h0 => cases h; exact .inr (.inl ⟨not_not.mp hs, h0, rfl, rfl⟩)
    · next h0 =>
      split at h
      · next c0 c1 more hd =>
        cases h
        have hrest : rest = rest.take (2 * hdr.wc.toNat) ++ (c0 :: c1 :: tail) := by
          rw [← hd, List.take_append_drop]
        have hl : (rest.take (2 * hdr.wc.toNat)).length = 2 * hdr.wc.toNat := by
          have := congrArg List.length hd
          simp only [List.length_drop, List.length_cons] at this
          rw [List.length_take]
          omega
        exact .inr (.inr ⟨not_not.mp hs, h0, _, wordOf c0 c1, hl, rfl, by simpa using hrest⟩)
      · cases h

/-- No byte of a decoded response is lost (R83, R84, R95). -/
theorem encode_decodeResponse {bs tail : List Byte} {i : Instr} (h : decodeResponse bs = .ok (i, tail)) (cfg : Config)
    (seq : Nibble) : encode cfg seq i ++ tail = bs := by
  obtain ⟨hdr, ⟨_, rfl, rfl⟩ | ⟨_, _, rfl, rfl⟩ | ⟨_, _, p, c, _, rfl, rfl⟩⟩ := decodeResponse_cases h
  · rfl
  · simp [encode, responseBytes, pcrcBytes]
  · simp [encode, responseBytes, pcrcBytes]

/-- Settles O12. -/
theorem responseBytesAreAllKept : Obligations.ResponseBytesAreAllKept :=
  fun _ _ _ h => ⟨decodeResponse_wf h, decodeResponse_isCommand h, encode_decodeResponse h⟩

/-- A response ends where its header says, whatever follows it (R95). -/
theorem decodeResponse_append {bs tail : List Byte} {i : Instr} (rest : List Byte) (h : decodeResponse bs = .ok (i, tail)) :
    decodeResponse (bs ++ rest) = .ok (i, tail ++ rest) := by
  obtain ⟨hdr, ⟨hs, rfl, rfl⟩ | ⟨hs, h0, rfl, rfl⟩ | ⟨hs, h0, p, c, hl, rfl, rfl⟩⟩ := decodeResponse_cases h
  · rw [List.append_assoc, decodeResponse_block, if_pos hs]
  · rw [List.append_assoc, decodeResponse_block, if_neg (not_not.mpr hs), if_pos h0]
  · rw [List.append_assoc, decodeResponse_block, if_neg (not_not.mpr hs), if_neg h0]
    simp [← hl, be16]

/-! ### Every instruction as its row -/

/-- The header of a well-formed instruction's frame belongs to the instruction's row, one lemma for each constructor (R86). -/
theorem encode_matchesRow (i : Instr) : Laws.HeaderOfRow.Statement i := by
  cases i with
  | readReg idx off wc => exact Laws.HeaderOfRow.readReg idx off wc
  | writeReg idx off wc words => exact Laws.HeaderOfRow.writeReg idx off wc words
  | gainWriteAccess => exact Laws.HeaderOfRow.gainWriteAccess
  | enableBridge => exact Laws.HeaderOfRow.enableBridge
  | disableBridge => exact Laws.HeaderOfRow.disableBridge
  | home => exact Laws.HeaderOfRow.home
  | stop => exact Laws.HeaderOfRow.stop
  | resetEvents => exact Laws.HeaderOfRow.resetEvents
  | sync => exact Laws.HeaderOfRow.sync
  | setMeasuredPosition ticks => exact Laws.HeaderOfRow.setMeasuredPosition ticks
  | gotoTicks ticks => exact Laws.HeaderOfRow.gotoTicks ticks
  | getPositionTicks => exact Laws.HeaderOfRow.getPositionTicks
  | getStatus sel => exact Laws.HeaderOfRow.getStatus sel
  | getFirmwareInfo => exact Laws.HeaderOfRow.getFirmwareInfo
  | getProductInfo => exact Laws.HeaderOfRow.getProductInfo
  | rspOk hdr payload pcrc => exact Laws.HeaderOfRow.rspOk hdr payload pcrc
  | rspErr hdr => exact Laws.HeaderOfRow.rspErr hdr

/-- No command sends an empty payload: with nothing to send, the payload is absent (R82). -/
theorem request_pay_ne_empty {i : Instr} {cfg : Config} {r : Request} (hw : i.wf = true) (hr : i.request cfg = some r) :
    r.pay ≠ some [] := by
  cases i <;> simp only [Instr.request, Option.some.injEq, reduceCtorEq] at hr <;> subst hr
  case readReg | getPositionTicks | getStatus | getFirmwareInfo | getProductInfo => exact nofun
  case setMeasuredPosition | gotoTicks => exact fun h => u32ToBytes_ne_nil _ _ (Option.some.inj h)
  case writeReg idx off wc words =>
    have hl : words.length = wc.toNat := by simpa [Instr.wf, wordsMatch] using hw
    cases words with
    | nil =>
      have h0 : wc = 0 := BitVec.eq_of_toNat_eq hl.symm
      simp [h0]
    | cons w ws =>
      have h0 : wc ≠ 0 := by
        rintro rfl
        cases hl
      rw [if_neg h0]
      exact fun h => wordsToBytes_cons_ne_nil _ _ _ (Option.some.inj h)
  all_goals exact fun h => wordsToBytes_cons_ne_nil _ _ _ (Option.some.inj h)

/-- The operands of a command's request, read as those of the command's row, are the command (R91). -/
theorem rowCommand_request {i : Instr} {cfg : Config} {r : Request} (hw : i.wf = true) (hr : i.request cfg = some r) :
    i.row.command cfg.payloadOrder r = some i := by
  cases i <;> simp only [Instr.request, Option.some.injEq, reduceCtorEq] at hr <;> subst hr
  case setMeasuredPosition ticks =>
    exact congrArg (Option.map Instr.setMeasuredPosition) (bytesToU32_payload cfg.payloadOrder ticks)
  case gotoTicks ticks =>
    exact congrArg (Option.map Instr.gotoTicks) (bytesToU32_payload cfg.payloadOrder ticks)
  case writeReg idx off wc words =>
    have hl : words.length = wc.toNat := by simpa [Instr.wf, wordsMatch] using hw
    by_cases h0 : wc = 0
    · have hnil : words = [] := List.eq_nil_of_length_eq_zero (by simpa [h0] using hl)
      simp [Instr.row, Row.command, h0, hnil, bytesToWords]
    · rw [if_neg h0]
      exact congrArg (fun ws => some (Instr.writeReg idx off wc ws)) (bytesToWords_wordsToBytes cfg.payloadOrder words)
  all_goals rfl

/-- A command's frame is read back as the command's row: the operands are read, the header matches, the row names the command. -/
theorem decodeAs_command {cfg : Config} {i : Instr} (seq : Nibble) (rest : List Byte) (hm : cfg.regMap = RegMap.source)
    (hw : i.wf = true) (hc : i.isCommand = true) :
    decodeAs cfg.payloadOrder i.row (encode cfg seq i ++ rest) = .ok (i, rest) := by
  obtain ⟨r, hr⟩ := isCommand_request cfg hc
  have hc : i.row.isCommand = true := hc
  have hrow := encode_matchesRow i cfg seq hm hw
  rw [encode_command seq hr] at hrow ⊢
  have hhead : (frameHeader (encodeRequest seq r ++ rest)).any i.row.matchesHeader = true := hrow
  rw [decodeAs, if_pos hc, parseRequest_encodeRequest seq rest (request_wf hw hr) (request_pay_ne_empty hw hr)]
  simp only [hhead, rowCommand_request hw hr]

theorem decodeAs_response {cfg : Config} {i : Instr} (seq : Nibble) (rest : List Byte) (hw : i.wf = true)
    (hc : i.isCommand = false) : decodeAs cfg.payloadOrder i.row (encode cfg seq i ++ rest) = .ok (i, rest) := by
  have hrow : ¬ i.row.isCommand = true := Bool.eq_false_iff.mp hc
  rw [decodeAs, if_neg hrow, decodeResponse_append rest (decodeResponse_encode hw hc cfg seq)]
  simp only [if_true, List.nil_append]

/-- Settles O10: a command is read back through its request, a response through its bytes. -/
theorem decodeReadsBackEveryInstruction : Obligations.DecodeReadsBackEveryInstruction := by
  intro cfg seq i rest hm hw
  cases hc : i.isCommand with
  | true => exact decodeAs_command seq rest hm hw hc
  | false => exact decodeAs_response seq rest hw hc

/-- Settles O13: the requests first, then the two responses. -/
theorem writtenOutFramesDecode : Obligations.WrittenOutFramesDecode :=
  ⟨by decide, by decide, by decide, by decide, by decide, by decide⟩

/-! ### The two halves of `SYNC_POSITION` -/

/-- Settles O48: the input runs the first command, and the second half, once due, goes by the result held. -/
theorem syncPositionIsTwoCommands : Obligations.SyncPositionIsTwoCommands := by
  refine ⟨fun s ticks rest hq hi => step_syncPosition hq hi, fun s hp hi hr => ?_, fun s hp hi hr => ?_⟩
  · rw [step_secondHalf (secondHalfDue_iff.mpr ⟨hp, hi⟩), if_pos hr]
  · rw [step_secondHalf (secondHalfDue_iff.mpr ⟨hp, hi⟩), if_neg hr]

end Sys2Proof.Machine
end

section
/-! PROOF. The CRC unit (R111 to R117). `CRC_BYTE` is linear over exclusive or, and a map linear over exclusive or is what it makes of the
one-bit inputs: the byte-parallel form and the table form follow from that, and so do the residue and the linearity of a checksum. -/

namespace Sys2Proof.Machine

/-! ### Maps linear over exclusive or -/

/-- A map of bit vectors that is linear over exclusive or. -/
def XorLinear {n m : Nat} (f : BitVec n → BitVec m) : Prop :=
  ∀ a b, f (a ^^^ b) = f a ^^^ f b

theorem XorLinear.map_zero {n m : Nat} {f : BitVec n → BitVec m} (hf : XorLinear f) : f 0#n = 0#m := by
  have h := hf 0#n 0#n
  rwa [BitVec.xor_self, BitVec.xor_self] at h

/-- The lowest `k + 1` bits of a vector are its lowest `k` bits and bit `k`. -/
theorem setWidth_setWidth_succ {n : Nat} (x : BitVec n) (k : Nat) :
    (x.setWidth (k + 1)).setWidth n =
      (x.setWidth k).setWidth n ^^^ if x.getLsbD k then BitVec.twoPow n k else 0#n := by
  refine BitVec.eq_of_getLsbD_eq fun j hj => ?_
  rcases lt_trichotomy j k with hlt | rfl | hgt
  · cases x.getLsbD k <;> simp [hj, hlt, Nat.lt_succ_of_lt hlt, hlt.ne]
  · cases h : x[j] <;> simp [BitVec.getLsbD_eq_getElem hj, h]
  · cases x.getLsbD k <;> simp [hj, hgt.not_gt, (Nat.succ_le_of_lt hgt).not_gt, hgt.ne']

/-- Linear maps that agree on the one-bit inputs agree (the derivation R114 names). -/
theorem XorLinear.ext {n m : Nat} {f g : BitVec n → BitVec m} (hf : XorLinear f) (hg : XorLinear g)
    (h : ∀ i < n, f (BitVec.twoPow n i) = g (BitVec.twoPow n i)) (x : BitVec n) : f x = g x := by
  have lowBits : ∀ k ≤ n, f ((x.setWidth k).setWidth n) = g ((x.setWidth k).setWidth n) := by
    intro k
    induction k with
    | zero => simp [BitVec.of_length_zero, hf.map_zero, hg.map_zero]
    | succ k ih =>
      intro hk
      rw [setWidth_setWidth_succ, hf, hg, ih (Nat.le_of_succ_le hk)]
      split
      · rw [h k hk]
      · rw [hf.map_zero, hg.map_zero]
  simpa using lowBits n le_rfl

/-! ### The bit-serial form (R112) -/

theorem crcShift_xorLinear : XorLinear crcShift := by
  intro a b
  simp only [crcShift, BitVec.msb_xor, BitVec.shiftLeft_xor_distrib]
  cases a.msb <;> cases b.msb
  case true.true => simp [BitVec.xor_assoc, BitVec.xor_comm (b <<< 1)]
  case false.false => rfl
  all_goals
    simp only [Bool.bne_true, Bool.bne_false, Bool.not_false, if_true, Bool.false_eq_true, if_false]
    ac_rfl

theorem crcShifts_xorLinear : ∀ k, XorLinear (crcShifts k)
  | 0, _, _ => rfl
  | k + 1, a, b => by rw [crcShifts, crcShift_xorLinear, crcShifts_xorLinear k, crcShifts, crcShifts]

/-- An iteration loses nothing: bit 0 of the polynomial tells that a 1 was shifted out. -/
theorem crcShift_eq_zero_iff {c : Word} : crcShift c = 0 ↔ c = 0 := by
  refine ⟨fun h => ?_, by rintro rfl; exact crcShift_xorLinear.map_zero⟩
  rw [crcShift] at h
  split at h
  next =>
    have hbit := congrArg (BitVec.getLsbD · 0) h
    simp at hbit
  next htop =>
    have hlow : 2 * c.toNat < 2 ^ 16 := BitVec.msb_eq_false_iff_two_mul_lt.mp (Bool.eq_false_iff.mpr htop)
    bv_omega

theorem crcShifts_eq_zero_iff {k : Nat} {c : Word} : crcShifts k c = 0 ↔ c = 0 := by
  induction k generalizing c with
  | zero => rfl
  | succ k ih => rw [crcShifts, ih, crcShift_eq_zero_iff]

/-- `CRC_BYTE` is linear in the accumulator and the byte together. -/
theorem crcByte_xor (a a' : Word) (b b' : Byte) : crcByte (a ^^^ a') (b ^^^ b') = crcByte a b ^^^ crcByte a' b' := by
  simp only [crcByte, ← crcShifts_xorLinear 8 _ _, BitVec.setWidth_xor, BitVec.shiftLeft_xor_distrib]
  congr 1
  ac_rfl

@[simp] theorem crcByte_zero_zero : crcByte 0#16 0#8 = 0#16 := by decide

/-- Eight iterations on a word whose high byte is 0 shift out no 1. -/
theorem crcShifts_eight_lowByte (b : Byte) : crcShifts 8 (b.setWidth 16) = b.setWidth 16 <<< 8 := by
  refine XorLinear.ext (f := fun b : Byte => crcShifts 8 (b.setWidth 16)) (g := fun b : Byte => b.setWidth 16 <<< 8)
    (fun a b => ?_) (fun a b => ?_) (by decide) b
  · simp only [BitVec.setWidth_xor, crcShifts_xorLinear 8 _ _]
  · simp only [BitVec.setWidth_xor, BitVec.shiftLeft_xor_distrib]

/-! ### A word and its two bytes -/

theorem hiByte_xor_loByte (c : Word) : (hiByte c).setWidth 16 <<< 8 ^^^ (loByte c).setWidth 16 = c := by
  refine BitVec.eq_of_getLsbD_eq fun j hj => ?_
  by_cases h8 : j < 8
  · simp [hiByte, loByte, hj, h8]
  · have hlt : j - 8 < 8 := by omega
    have hadd : 8 + (j - 8) = j := by omega
    simp [hiByte, loByte, hj, h8, hlt, hadd]

theorem shiftLeft_eight (c : Word) : c <<< 8 = (loByte c).setWidth 16 <<< 8 := by
  refine BitVec.eq_of_getLsbD_eq fun j hj => ?_
  have hlt : j - 8 < 8 := by omega
  have hlt16 : j - 8 < 16 := by omega
  simp [loByte, hj, hlt, BitVec.getLsbD_eq_getElem hlt16]

theorem setWidth_shiftRight_eight (c : Word) : (c >>> 8).setWidth 8 = hiByte c := by
  refine BitVec.eq_of_getLsbD_eq fun j hj => ?_
  simp [hiByte, hj]

/-! ### The byte-parallel form (R114) -/

/-- Each of the sixteen equations is an exclusive or of bits of the accumulator and the byte. -/
theorem crcByteParallel_xor (a a' : Word) (b b' : Byte) :
    crcByteParallel (a ^^^ a') (b ^^^ b') = crcByteParallel a b ^^^ crcByteParallel a' b' := by
  have : Std.Commutative xor := ⟨Bool.xor_comm⟩
  refine BitVec.eq_of_getLsbD_eq fun i hi => ?_
  rw [BitVec.getLsbD_xor]
  simp only [crcByteParallel, BitVec.getLsbD_ofBoolListBE, BitVec.getLsbD_xor]
  interval_cases i <;>
    simp only [List.length_cons, List.length_nil, Nat.reduceAdd, Nat.reduceSub, Nat.reduceLT, decide_true, Bool.true_and,
      List.getD_cons_succ, List.getD_cons_zero] <;>
    ac_rfl

/-- Settles O2: both forms are linear in the accumulator and the byte, and they agree on the 24 one-bit inputs. -/
theorem crcParallelFormAgrees : Obligations.CrcParallelFormAgrees := by
  intro acc b
  have onAcc : crcByteParallel acc 0 = crcByte acc 0 :=
    XorLinear.ext (f := (crcByteParallel · 0)) (g := (crcByte · 0)) (fun a a' => crcByteParallel_xor a a' 0 0)
      (fun a a' => crcByte_xor a a' 0 0) (by decide) acc
  have onByte : crcByteParallel 0 b = crcByte 0 b :=
    XorLinear.ext (f := crcByteParallel 0) (g := crcByte 0) (crcByteParallel_xor 0 0) (crcByte_xor 0 0) (by decide) b
  calc crcByteParallel acc b
      = crcByteParallel (acc ^^^ 0) (0 ^^^ b) := by simp
    _ = crcByteParallel acc 0 ^^^ crcByteParallel 0 b := crcByteParallel_xor acc 0 0 b
    _ = crcByte acc 0 ^^^ crcByte 0 b := by rw [onAcc, onByte]
    _ = crcByte (acc ^^^ 0) (0 ^^^ b) := (crcByte_xor acc 0 0 b).symm
    _ = crcByte acc b := by simp

/-! ### The table form (R115) -/

theorem crcTable_eq (t : Byte) : crcTable t = crcShifts 8 (t.setWidth 16 <<< 8) := by
  simp [crcTable, crc16, crcByte]

/-- The low byte of the accumulator is shifted up unchanged, and the high byte meets the input byte in the table's index. -/
theorem crcByteTable_eq (acc : Word) (b : Byte) : crcByteTable acc b = crcByte acc b := by
  calc crcByteTable acc b
      = (loByte acc).setWidth 16 <<< 8 ^^^ crcTable (hiByte acc ^^^ b) := by
        rw [crcByteTable, shiftLeft_eight, setWidth_shiftRight_eight]
    _ = crcShifts 8 ((loByte acc).setWidth 16 ^^^ (hiByte acc ^^^ b).setWidth 16 <<< 8) := by
        rw [crcTable_eq, ← crcShifts_eight_lowByte, crcShifts_xorLinear]
    _ = crcShifts 8 ((hiByte acc).setWidth 16 <<< 8 ^^^ (loByte acc).setWidth 16 ^^^ b.setWidth 16 <<< 8) := by
        rw [BitVec.setWidth_xor, BitVec.shiftLeft_xor_distrib]
        congr 1
        ac_rfl
    _ = crcByte acc b := by rw [hiByte_xor_loByte, crcByte]

/-- Settles O3: the table form is `crcByteTable_eq`, and the listed entries are computed. -/
theorem crcTableFormAgrees : Obligations.CrcTableFormAgrees :=
  ⟨fun _ => rfl, crcByteTable_eq, by decide, by decide, by decide⟩

/-! ### Checksums of strings (R113, R116, R117) -/

theorem crc16_cons_zero (s : List Byte) : crc16 (0 :: s) = crc16 s := by
  simp [crc16]

theorem crc16_replicate_zero : ∀ n : Nat, crc16 (List.replicate n 0) = 0
  | 0 => rfl
  | n + 1 => by rw [List.replicate_succ, crc16_cons_zero, crc16_replicate_zero n]

/-- Two bytes that follow an accumulator are a word added to it. -/
theorem crcByte_crcByte (acc c : Word) :
    crcByte (crcByte acc (hiByte c)) (loByte c) = crcShifts 8 (crcShifts 8 (acc ^^^ c)) := by
  rw [crcByte, crcByte, ← crcShifts_eight_lowByte (loByte c), ← crcShifts_xorLinear, BitVec.xor_assoc, hiByte_xor_loByte]

theorem crc16_append_be16 (s : List Byte) (c : Word) :
    crc16 (s ++ be16 c) = crcShifts 8 (crcShifts 8 (crc16 s ^^^ c)) := by
  rw [crc16, List.foldl_append]
  exact crcByte_crcByte (crc16 s) c

theorem crc16_append_be16_eq_zero_iff (s : List Byte) (c : Word) : crc16 (s ++ be16 c) = 0 ↔ crc16 s = c := by
  rw [crc16_append_be16, crcShifts_eq_zero_iff, crcShifts_eq_zero_iff, xor_eq_zero_iff]

theorem foldl_crcByte_xor : ∀ (s t : List Byte) (a a' : Word), s.length = t.length →
    (List.zipWith (· ^^^ ·) s t).foldl crcByte (a ^^^ a') = s.foldl crcByte a ^^^ t.foldl crcByte a'
  | [], [], _, _, _ => rfl
  | b :: s, b' :: t, a, a', hl => by
    rw [List.zipWith_cons_cons, List.foldl_cons, List.foldl_cons, List.foldl_cons, crcByte_xor]
    exact foldl_crcByte_xor s t _ _ (Nat.succ.inj hl)

/-- Settles O4: leading zeros, the residue by `crc16_append_be16_eq_zero_iff`, and linearity from a zero accumulator. -/
theorem crcZeroResidueAndLinearity : Obligations.CrcZeroResidueAndLinearity :=
  ⟨crc16_cons_zero, crc16_replicate_zero, fun s => (crc16_append_be16_eq_zero_iff s _).mpr rfl,
    crc16_append_be16_eq_zero_iff, fun s t hl => foldl_crcByte_xor s t 0 0 hl⟩

/-- Settles O1: nine bytes through the bit-serial form. -/
theorem crcCheckValues : Obligations.CrcCheckValues :=
  ⟨rfl, by decide +kernel⟩

end Sys2Proof.Machine
end

section
/-! PROOF. How long a request is (R134). -/

namespace Sys2Proof.Machine

theorem length_withCrc (s : List Byte) : (withCrc s).length = s.length + 2 := by
  rw [withCrc, List.length_append, length_be16]

theorem length_encodeRequest_empty (seq : Nibble) {r : Request} (h : r.pay.getD [] = []) : (encodeRequest seq r).length = 8 := by
  rw [encodeRequest, payloadBlock_empty h, List.append_nil]
  rfl

theorem length_encodeRequest_payload (seq : Nibble) {r : Request} {p : List Byte} (h : r.pay = some p) (hp : p ≠ []) :
    (encodeRequest seq r).length = 10 + p.length := by
  have hh : (withCrc (requestHeader seq r)).length = 8 := rfl
  rw [encodeRequest_payload seq h hp, List.length_append, length_withCrc p, hh]
  omega

/-- Settles O7: the payload block is empty or the payload with its CRC, and well-formed operands are of one of three kinds. -/
theorem requestLengthFollowsThePayload : Obligations.RequestLengthFollowsThePayload := by
  refine fun seq r => ⟨length_encodeRequest_empty seq, fun hp => ?_, fun hw => ?_⟩
  · cases hr : r.pay with
    | none => simp [hr] at hp
    | some p => exact length_encodeRequest_payload seq hr (by simpa [hr] using hp)
  · rcases request_cases hw with ⟨hd, hp⟩ | ⟨hd, h0, hp⟩ | ⟨hd, h0, p, hne, hp, hl⟩
    · have h8 := length_encodeRequest_empty seq (r := r) (by rw [hp]; rfl)
      exact ⟨fun _ => h8, fun _ _ => h8, fun h => nomatch hd.symm.trans h⟩
    · have h8 := length_encodeRequest_empty seq hp
      exact ⟨fun _ => h8, fun _ _ => h8, fun _ h => absurd h0 h⟩
    · exact ⟨fun h => (nomatch hd.symm.trans h), fun _ h => absurd h h0,
        fun _ _ => hl ▸ length_encodeRequest_payload seq hp hne⟩

end Sys2Proof.Machine
end

section
/-! PROOF. Everything a parser that has just been started can end in (R138 to R147): a header block or a payload block cut short, a
response rejected for its header CRC, its status flag or its payload CRC, and a response accepted. The same parser serves a command
whose request was taken whole and a response that arrives at a waiting block, so each outcome is said once for both. -/

namespace Sys2Proof.Machine

/-! ### The parser as it starts, and what the end of its command leaves alone -/

/-- The parser `u` has just been started and has received nothing (R137); its buffers and the values of its diagnostics are those the
block held in `s`. -/
structure Started (s u : State) : Prop where
  ph : u.ph = .rxHeader
  rxHCnt : u.rxHCnt = 0
  rxPLen : u.rxPLen = 0
  rxPCnt : u.rxPCnt = 0
  rxCCnt : u.rxCCnt = 0
  hcrcValid : u.hcrcValid = false
  pcrcValid : u.pcrcValid = false
  rval : u.rval = none
  rxHdr : u.rxHdr = s.rxHdr
  rxPay : u.rxPay = s.rxPay
  rxPCrc : u.rxPCrc = s.rxPCrc
  hcrcCalc : u.hcrcCalc = s.hcrcCalc
  hcrcRecv : u.hcrcRecv = s.hcrcRecv
  hcrcOk : u.hcrcOk = s.hcrcOk
  pcrcCalc : u.pcrcCalc = s.pcrcCalc
  pcrcRecv : u.pcrcRecv = s.pcrcRecv
  pcrcOk : u.pcrcOk = s.pcrcOk

theorem started_requestSent (r : Request) (ret : Return) (s : State) : Started s (requestSent r ret s) := by
  constructor <;> rfl

theorem Receiving.started {s : State} (h : Receiving s) (rx : List ReadAnswer) :
    Started s { s with line := { s.line with rx := rx } } := by
  obtain ⟨hph, hh, hl, hp, hc, hhv, hpv, hr, _⟩ := h
  exact ⟨hph, hh, hl, hp, hc, hhv, hpv, hr, rfl, rfl, rfl, rfl, rfl, rfl, rfl, rfl, rfl⟩

/-- The command of the parser `u` ended in `t` after it was answered `reads`, with `rest` not asked for; what belongs to the request is
untouched. -/
structure EndedAfter (u t : State) (reads rest : List ReadAnswer) : Prop where
  cfg : t.cfg = u.cfg
  seq : t.seq = u.seq
  ph : t.ph = .idle
  txBuf : t.txBuf = u.txBuf
  txLen : t.txLen = u.txLen
  op : t.op = u.op
  ret : t.ret = u.ret
  trace : t.trace = u.trace ++ reads.map .rx
  line : t.line = { u.line with rx := rest }
  inbox : t.inbox = u.inbox
  syncPending : t.syncPending = u.syncPending

theorem EndedAfter.exchanged {r : Request} {ret : Return} {s t : State} {reads rest : List ReadAnswer}
    (h : EndedAfter (requestSent r ret s) t reads rest) : Exchanged s t r ret reads rest where
  cfg := h.cfg
  seq := h.seq
  ph := h.ph
  txBuf := h.txBuf
  txLen := h.txLen
  op := h.op
  ret := h.ret
  trace := h.trace.trans (List.append_assoc ..)
  line := h.line
  inbox := h.inbox
  syncPending := h.syncPending

theorem EndedAfter.received {s t : State} {rx rest : List ReadAnswer} {bs : List Byte}
    (h : EndedAfter { s with line := { s.line with rx := rx } } t (delivers bs) rest) :
    Received { s with line := { s.line with rx := rest } } t bs where
  cfg := h.cfg
  seq := h.seq
  ph := h.ph
  txBuf := h.txBuf
  txLen := h.txLen
  op := h.op
  ret := h.ret
  trace := h.trace
  line := h.line
  inbox := h.inbox
  syncPending := h.syncPending

/-- The command ends with the given results; nothing else moves. Every way a parser ends is one of these. -/
def endWith (res : ResultCode) (rval : Option Value) (rframe : Option Frame) (s : State) : State :=
  { s with res := some res, rval := rval, rframe := rframe, ph := .idle }

theorem raise_eq_endWith (e : ResultCode) (s : State) : raise e s = endWith e none none s := rfl

theorem results_endWith (res : ResultCode) (rval : Option Value) (rframe : Option Frame) (s : State) :
    Results (endWith res rval rframe s) res rval rframe := ⟨rfl, rfl, rfl⟩

/-! ### A read that fails, and reads that run out -/

theorem receive_fails {a : ReadAnswer} {e : ResultCode} (h : readError a = some e) (rest : List ReadAnswer) (s : State) :
    receive (a :: rest) s = .next (raise e (tRead1 a rest s)) := by
  cases a with
  | byte b => cases h
  | noData => cases h; exact receive_noData rest s
  | ioError => cases h; exact receive_ioError rest s

/-- A failing read ends no command with `Ok` (R139). -/
theorem readError_ne_ok {a : ReadAnswer} {e : ResultCode} (h : readError a = some e) : e ≠ .ok := by
  cases a <;> cases h <;> decide

/-- No byte follows: the answers at hand have run out, or the next of them is a failure. -/
def CutOff (as : List ReadAnswer) : Prop :=
  as = [] ∨ ∃ a e rest, readError a = some e ∧ as = a :: rest

theorem receive_cutOff_res {as : List ReadAnswer} {s t : State} (ha : CutOff as) (hs : s.res ≠ some .ok)
    (h : stateOf (receive as s) = some t) : t.res ≠ some .ok := by
  rcases ha with rfl | ⟨a, e, rest, he, rfl⟩
  · cases h
    exact hs
  · rw [receive_fails he] at h
    cases h
    exact fun ho => readError_ne_ok he (Option.some.inj ho)

/-- Reads deliver `n` bytes, or are cut off before. -/
theorem reads_deliver_or_cutOff (n : Nat) (reads : List ReadAnswer) :
    (∃ bs rest, bs.length = n ∧ reads = delivers bs ++ rest) ∨
    (∃ bs rest, bs.length < n ∧ CutOff rest ∧ reads = delivers bs ++ rest) := by
  induction n generalizing reads with
  | zero => exact .inl ⟨[], reads, rfl, rfl⟩
  | succ n ih =>
    cases reads with
    | nil => exact .inr ⟨[], [], Nat.succ_pos n, .inl rfl, rfl⟩
    | cons a more =>
      cases a with
      | byte b =>
        rcases ih more with ⟨bs, rest, hl, rfl⟩ | ⟨bs, rest, hl, hc, rfl⟩
        · exact .inl ⟨b :: bs, rest, congrArg (· + 1) hl, rfl⟩
        · exact .inr ⟨b :: bs, rest, Nat.succ_lt_succ hl, hc, rfl⟩
      | noData => exact .inr ⟨[], _, Nat.succ_pos n, .inr ⟨_, _, more, rfl, rfl⟩, rfl⟩
      | ioError => exact .inr ⟨[], _, Nat.succ_pos n, .inr ⟨_, _, more, rfl, rfl⟩, rfl⟩

/-! ### The blocks of a response -/

/-- A well-formed good response has its payload and payload CRC, or neither (R84). -/
theorem rspOk_wf_iff {h : RspHeader} {payload : List Byte} {pcrc : Option Word} :
    (Instr.rspOk h payload pcrc).wf = true ↔ h.status = constants.statusOk ∧
      ((h.wc = 0 ∧ payload = [] ∧ pcrc = none) ∨
        (h.wc ≠ 0 ∧ payload.length = 2 * h.wc.toNat ∧ ∃ c, pcrc = some c)) := by
  simp only [Instr.wf, statusIsOk, payloadMatches, Bool.and_eq_true, beq_iff_eq]
  refine and_congr_right fun _ => ?_
  by_cases h0 : h.wc = 0
  · simp [h0]
  · have hz : ¬ h.wc = 0#8 := h0
    have hb : (h.wc != 0#8) = true := bne_iff_ne.mpr h0
    simp [hz, hb, Option.isSome_iff_exists]

/-- Eight bytes are a header block (R83). -/
theorem exists_responseBlock {bs : List Byte} (h : bs.length = 8) : ∃ hdr, bs = responseBlock hdr := by
  match bs, h with
  | [b0, b1, b2, b3, b4, b5, b6, b7], _ =>
    exact ⟨⟨b0, b1, b2, b3, b4, b5, wordOf b6 b7⟩, by simp [responseBlock, responseHeader]⟩

/-- Bytes with two more than `n` are a payload of `n` bytes and its CRC (R84). -/
theorem exists_payload_crc {bs : List Byte} {n : Nat} (h : bs.length = n + 2) :
    ∃ p c, p.length = n ∧ bs = p ++ be16 c := by
  match hd : bs.drop n, (List.length_drop .. : (bs.drop n).length = bs.length - n) with
  | [c0, c1], _ =>
    refine ⟨bs.take n, wordOf c0 c1, by simp [h], ?_⟩
    rw [be16_wordOf, ← hd, List.take_append_drop]
  | [], hl | [_], hl | _ :: _ :: _ :: _, hl =>
    simp only [List.length_cons, List.length_nil] at hl
    omega

/-! ### What has been stored -/

/-- The parser when a header block has been stored and its diagnostic recorded (R138, R140). -/
def headerRead (h : RspHeader) (rest : List ReadAnswer) (u : State) : State :=
  { u with
    rxHdr := responseBlock h ++ u.rxHdr.drop 8
    rxHCnt := 8
    crcAcc := some (crc16 (responseHeader h))
    hcrcCalc := some (crc16 (responseHeader h))
    hcrcRecv := some h.hcrc
    hcrcOk := some (crc16 (responseHeader h) == h.hcrc)
    hcrcValid := true
    trace := u.trace ++ (delivers (responseBlock h)).map .rx
    line := { u.line with rx := rest } }

theorem headerRead_eq (h : RspHeader) (rest : List ReadAnswer) (u : State) :
    setHeaderCrcFlags (headerReceived h rest u) = headerRead h rest u := by
  rw [setHeaderCrcFlags, headerReceived_bytes, headerReceived_crc]
  rfl

/-- The parser when a good header block and the bytes `bs` of its payload block, not all of them, have been stored (R143, R144): the
payload comes first, then its CRC. -/
def payloadBegun (h : RspHeader) (bs : List Byte) (rest : List ReadAnswer) (u : State) : State :=
  { headerRead h rest u with
    ph := .rxPayload
    rxPLen := 2 * h.wc.toNat
    rxPCnt := min bs.length (2 * h.wc.toNat)
    rxCCnt := bs.length - 2 * h.wc.toNat
    rxPay := bs.take (2 * h.wc.toNat) ++ u.rxPay.drop (min bs.length (2 * h.wc.toNat))
    rxPCrc := bs.drop (2 * h.wc.toNat) ++ u.rxPCrc.drop (bs.length - 2 * h.wc.toNat)
    trace := u.trace ++ (delivers (responseBlock h ++ bs)).map .rx }

/-- The parser when a good header block and its whole payload block have been stored, and the payload's diagnostic recorded (R144). -/
def payloadRead (h : RspHeader) (payload : List Byte) (c : Word) (rest : List ReadAnswer) (u : State) : State :=
  { headerRead h rest u with
    ph := .rxPayload
    rxPLen := payload.length
    rxPCnt := payload.length
    rxCCnt := 2
    rxPay := payload ++ u.rxPay.drop payload.length
    rxPCrc := be16 c ++ u.rxPCrc.drop 2
    crcAcc := some (crc16 payload)
    pcrcCalc := some (crc16 payload)
    pcrcRecv := some c
    pcrcOk := some (crc16 payload == c)
    pcrcValid := true
    trace := u.trace ++ (delivers (responseBytes h payload (some c))).map .rx }

section
variable {s u : State} {h : RspHeader} {rest : List ReadAnswer}

theorem receive_headerBegun {bs : List Byte} (hs : Started s u) (hl : bs.length < 8) (hx : u.line.rx = delivers bs ++ rest) :
    receive u.line.rx u = receive rest (storeHeader bs rest u) := by
  rw [hx]
  exact receive_headerBytes bs rest u hs.ph (by rw [hs.rxHCnt]; omega) (by rw [hs.rxHCnt]; omega) hx

/-- After a good header block the parser stores payload bytes, no more than are expected. -/
theorem receive_payloadPart {bs : List Byte} (hs : Started s u)
    (hc : u.cfg.verifyResponseCrc = true → crc16 (responseHeader h) = h.hcrc) (hst : h.status = constants.statusOk)
    (hw : h.wc ≠ 0) (hl : bs.length ≤ 2 * h.wc.toNat) (hx : u.line.rx = delivers (responseBlock h ++ bs) ++ rest) :
    receive u.line.rx u = receive rest (payloadBegun h bs rest u) := by
  have hx' : u.line.rx = delivers (responseBlock h) ++ (delivers bs ++ rest) := by rw [hx, delivers_append, List.append_assoc]
  rw [hx', receive_expectPayload hs.ph hs.rxHCnt hx' hc hst hw, payloadExpected, headerRead_eq]
  refine (receive_payloadBytes bs rest { headerRead h (delivers bs ++ rest) u with
    rxPLen := 2 * h.wc.toNat, ph := .rxPayload } rfl ?_ ?_ rfl).trans (congrArg _ ?_)
  · simpa [headerRead, hs.rxPCnt] using hl
  · simp [headerRead, hs.rxPCnt]
  · simp [storePayload, payloadBegun, headerRead, hs.rxPCnt, hs.rxCCnt, hl, delivers]

/-- After a good header block the parser stores a payload block that is not whole: the payload, and of its CRC at most one byte. -/
theorem receive_payloadBegun {bs : List Byte} (hs : Started s u)
    (hc : u.cfg.verifyResponseCrc = true → crc16 (responseHeader h) = h.hcrc) (hst : h.status = constants.statusOk)
    (hw : h.wc ≠ 0) (hl : bs.length < 2 * h.wc.toNat + 2) (hx : u.line.rx = delivers (responseBlock h ++ bs) ++ rest) :
    receive u.line.rx u = receive rest (payloadBegun h bs rest u) := by
  by_cases hle : bs.length ≤ 2 * h.wc.toNat
  · exact receive_payloadPart hs hc hst hw hle hx
  · obtain ⟨p, c0, rfl⟩ := (List.eq_nil_or_concat' bs).resolve_left (by rintro rfl; exact hle (Nat.zero_le _))
    have hp : p.length = 2 * h.wc.toNat := by
      rw [List.length_append, List.length_singleton] at hl hle
      omega
    have hx' : u.line.rx = delivers (responseBlock h ++ p) ++ (.byte c0 :: rest) := by simpa [delivers] using hx
    rw [receive_payloadPart hs hc hst hw hp.le hx',
      receive_byte (onByte_crcHigh c0 rest _ rfl (by simp [payloadBegun, hp]) (by simp [payloadBegun, hp]))
        (by simp [storeCrcHigh, payloadBegun])]
    simp [storeCrcHigh, payloadBegun, headerRead, ← hp, delivers]

/-- With the payload and its CRC stored, an enforced payload CRC decides between `CrcMismatch` and success (R144 to R146). -/
theorem payloadDone_stored {payload : List Byte} (c : Word) (more : List ReadAnswer) (hl : payload.length = 2 * h.wc.toNat) :
    payloadDone (storeCrc (hiByte c) (loByte c) rest (payloadBegun h payload more u)) =
      if u.cfg.verifyResponseCrc = true ∧ crc16 payload ≠ c then .next (raise .crcMismatch (payloadRead h payload c rest u))
      else finish (payloadRead h payload c rest u) := by
  generalize hw : storeCrc (hiByte c) (loByte c) rest (payloadBegun h payload more u) = w
  have hcfg : w.cfg = u.cfg := hw ▸ rfl
  have hpay : rxPayloadBytes w = payload := by simp [← hw, rxPayloadBytes, storeCrc, payloadBegun, ← hl]
  have hcrc : rxPayloadCrc w = c := hw ▸ wordOf_hi_lo c
  have hread : setPayloadCrcFlags w = payloadRead h payload c rest u := by
    rw [setPayloadCrcFlags, hpay, hcrc]
    simp [← hw, storeCrc, payloadBegun, headerRead, payloadRead, ← hl, responseBytes, pcrcBytes, be16, delivers]
  rw [payloadDone, hcfg, hpay, hcrc, hread]

/-- After a good header block and a whole payload block the command has ended. -/
theorem receive_payloadWhole {payload : List Byte} {c : Word} (hs : Started s u)
    (hc : u.cfg.verifyResponseCrc = true → crc16 (responseHeader h) = h.hcrc) (hst : h.status = constants.statusOk)
    (hw : h.wc ≠ 0) (hl : payload.length = 2 * h.wc.toNat)
    (hx : u.line.rx = delivers (responseBytes h payload (some c)) ++ rest) :
    receive u.line.rx u =
      if u.cfg.verifyResponseCrc = true ∧ crc16 payload ≠ c then .next (raise .crcMismatch (payloadRead h payload c rest u))
      else finish (payloadRead h payload c rest u) := by
  have hx' : u.line.rx = delivers (responseBlock h ++ payload) ++ (.byte (hiByte c) :: .byte (loByte c) :: rest) := by
    simpa [responseBytes, pcrcBytes, be16, delivers] using hx
  rw [receive_payloadPart hs hc hst hw hl.le hx', ← payloadDone_stored c _ hl]
  exact receive_payloadCrc _ _ rest _ rfl (by simp [payloadBegun, hl]) (by simp [payloadBegun, hl])
    fun _ => payloadDone_idle

/-! ### What a response leaves in the registers -/

/-- The parser `u` stored a header block and what follows it, and its command ended in `t`: every register but the results. -/
structure Responded (s u t : State) (h : RspHeader) (payload : List Byte) (pcrc : Option Word) (rest : List ReadAnswer) : Prop where
  ended : EndedAfter u t (delivers (responseBytes h payload pcrc)) rest
  header : HeaderTaken s t h
  registers : PayloadRegisters s t h payload pcrc

/-- Whatever a command ends with after its header block, no payload has been asked for. -/
theorem responded_headerRead (hs : Started s u) (res : ResultCode) (v : Option Value) (f : Option Frame) :
    Responded s u (endWith res v f (headerRead h rest u)) h [] none rest where
  ended := ⟨rfl, rfl, rfl, rfl, rfl, rfl, rfl, rfl, rfl, rfl, rfl⟩
  header := ⟨congrArg (fun x => responseBlock h ++ List.drop 8 x) hs.rxHdr, rfl, rfl, rfl, rfl, rfl⟩
  registers := ⟨⟨hs.rxPay, hs.rxPLen, hs.rxPCnt, hs.rxPCrc, hs.rxCCnt, hs.pcrcCalc, hs.pcrcRecv, hs.pcrcOk, hs.pcrcValid⟩, rfl⟩

theorem responded_payloadRead (hs : Started s u) (payload : List Byte) (c : Word) (res : ResultCode) (v : Option Value)
    (f : Option Frame) :
    Responded s u (endWith res v f (payloadRead h payload c rest u)) h payload (some c) rest where
  ended := ⟨rfl, rfl, rfl, rfl, rfl, rfl, rfl, rfl, rfl, rfl, rfl⟩
  header := ⟨congrArg (fun x => responseBlock h ++ List.drop 8 x) hs.rxHdr, rfl, rfl, rfl, rfl, rfl⟩
  registers := ⟨congrArg (fun x => payload ++ List.drop payload.length x) hs.rxPay, rfl, rfl,
    congrArg (fun x => be16 c ++ List.drop 2 x) hs.rxPCrc, rfl, rfl, rfl, rfl, rfl, rfl⟩

/-! ### How the command ends -/

/-- A header block that is not accepted ends the command with its eight bytes (R141, R142). -/
theorem receive_headerRejected {e : ResultCode} (hs : Started s u) (hx : u.line.rx = delivers (responseBlock h) ++ rest)
    (hd : headerDone (headerReceived h rest u) = .next (raise e (setHeaderCrcFlags (headerReceived h rest u)))) :
    ∃ t, receive u.line.rx u = .next t ∧ Responded s u t h [] none rest ∧ Results t e none none := by
  refine ⟨_, ?_, responded_headerRead (h := h) (rest := rest) hs e none none, results_endWith ..⟩
  rw [hx, receive_headerEnds hs.ph hs.rxHCnt hx hd (fun t ht => by cases ht; rfl), headerRead_eq, raise_eq_endWith]

theorem receive_headerMismatch (hs : Started s u) (hx : u.line.rx = delivers (responseBlock h) ++ rest)
    (hv : u.cfg.verifyResponseCrc = true) (hc : crc16 (responseHeader h) ≠ h.hcrc) :
    ∃ t, receive u.line.rx u = .next t ∧ Responded s u t h [] none rest ∧ Results t .crcMismatch none none :=
  receive_headerRejected hs hx (headerDone_mismatch hv hc)

theorem receive_badStatus (hs : Started s u) (hx : u.line.rx = delivers (responseBlock h) ++ rest)
    (hc : u.cfg.verifyResponseCrc = true → crc16 (responseHeader h) = h.hcrc) (hst : h.status ≠ constants.statusOk) :
    ∃ t, receive u.line.rx u = .next t ∧ Responded s u t h [] none rest ∧ Results t .badResponse none none :=
  receive_headerRejected hs hx (headerDone_badStatus hc hst)

/-- An enforced payload CRC that is wrong ends the command with all the bytes of its response (R145). -/
theorem receive_payloadMismatch {payload : List Byte} {c : Word} (hs : Started s u)
    (hw : (Instr.rspOk h payload (some c)).wf = true) (hx : u.line.rx = delivers (responseBytes h payload (some c)) ++ rest)
    (hv : u.cfg.verifyResponseCrc = true) (hc : crc16 (responseHeader h) = h.hcrc) (hp : crc16 payload ≠ c) :
    ∃ t, receive u.line.rx u = .next t ∧ Responded s u t h payload (some c) rest ∧ Results t .crcMismatch none none := by
  obtain ⟨hst, ⟨_, _, hn⟩ | ⟨h0, hl, _⟩⟩ := rspOk_wf_iff.mp hw
  · cases hn
  · refine ⟨_, ?_, responded_payloadRead (h := h) (rest := rest) hs payload c .crcMismatch none none, results_endWith ..⟩
    rw [receive_payloadWhole hs (fun _ => hc) hst h0 hl hx, if_pos ⟨hv, hp⟩, raise_eq_endWith]

/-- Success takes the value from the payload of the frame, and ends the command (R146). -/
theorem finish_eq {w : State} {f : Frame} (hv : w.rval = none) (hf : decodedFrame w = f) :
    finish w = returnValue w.ret f.payload (endWith .ok none (some f) w) := by
  simp [finish, endWith, hf, hv]

theorem decodedFrame_headerRead (hs : Started s u) : decodedFrame (headerRead h rest u) = ⟨h, [], none⟩ := by
  have hcrc : rxHeaderCrc (headerRead h rest u) = h.hcrc := wordOf_hi_lo h.hcrc
  have hlen : (headerRead h rest u).rxPLen = 0 := hs.rxPLen
  rw [decodedFrame, hcrc, rxPayloadBytes, hlen]
  rfl

theorem decodedFrame_payloadRead {payload : List Byte} (c : Word) (hl : payload.length ≠ 0) :
    decodedFrame (payloadRead h payload c rest u) = ⟨h, payload, some c⟩ := by
  have hhcrc : rxHeaderCrc (payloadRead h payload c rest u) = h.hcrc := wordOf_hi_lo h.hcrc
  have hpcrc : rxPayloadCrc (payloadRead h payload c rest u) = c := wordOf_hi_lo c
  have hpay : rxPayloadBytes (payloadRead h payload c rest u) = payload := List.take_left
  have hlen : ¬ (payloadRead h payload c rest u).rxPLen = 0 := hl
  rw [decodedFrame, hhcrc, hpcrc, hpay, if_neg hlen]
  rfl

/-- A response that is accepted is read whole, and the command's rule takes its value from the payload (R146). -/
theorem receive_accepted {payload : List Byte} {pcrc : Option Word} (hs : Started s u)
    (hw : (Instr.rspOk h payload pcrc).wf = true) (hc : CrcsAccepted u.cfg h payload pcrc)
    (hx : u.line.rx = delivers (responseBytes h payload pcrc) ++ rest) :
    ∃ w, receive u.line.rx u = returnValue u.ret payload (endWith .ok none (some ⟨h, payload, pcrc⟩) w) ∧ w.cfg = u.cfg ∧
      ∀ v, Responded s u (endWith .ok v (some ⟨h, payload, pcrc⟩) w) h payload pcrc rest := by
  obtain ⟨hst, ⟨h0, rfl, rfl⟩ | ⟨h0, hl, c, rfl⟩⟩ := rspOk_wf_iff.mp hw
  · refine ⟨headerRead h rest u, ?_, rfl, fun v => responded_headerRead hs _ v _⟩
    have hx : u.line.rx = delivers (responseBlock h) ++ rest := hx
    have hlen : ({ headerRead h rest u with rxPLen := 0 } : State) = headerRead h rest u := by
      simp [headerRead, hs.rxPLen]
    rw [hx, receive_headerEnds hs.ph hs.rxHCnt hx (headerDone_noPayload (fun hv => (hc hv).1) hst h0) fun _ => finish_idle,
      headerRead_eq, hlen]
    exact finish_eq hs.rval (decodedFrame_headerRead hs)
  · refine ⟨payloadRead h payload c rest u, ?_, rfl, fun v => responded_payloadRead hs payload c _ v _⟩
    have hne : payload.length ≠ 0 := fun hz => h0 (BitVec.eq_of_toNat_eq (by simpa [hz] using hl.symm))
    have hv : ¬ (u.cfg.verifyResponseCrc = true ∧ crc16 payload ≠ c) := fun hv => hv.2 ((hc hv.1).2 c rfl)
    rw [receive_payloadWhole hs (fun hv => (hc hv).1) hst h0 hl hx, if_neg hv]
    exact finish_eq hs.rval (decodedFrame_payloadRead c hne)

/-- Where the payload is long enough for the command's result, the value is the one its rule takes. -/
theorem returnValue_of_some {ret : Return} {payload : List Byte} {w : State} {v : Option Value} (hw : w.rval = none)
    (hv : resultValue ret w.cfg.payloadOrder payload = some v) : returnValue ret payload w = .next { w with rval := v } := by
  cases ret <;> simp only [resultValue, Option.some.injEq, Option.map_eq_some_iff] at hv
  case nothing =>
    subst hv
    rw [← hw]
    rfl
  case payload =>
    subst hv
    rfl
  case word =>
    obtain ⟨x, hx, rfl⟩ := hv
    simp only [returnValue, hx]
  case ticks =>
    obtain ⟨x, hx, rfl⟩ := hv
    simp only [returnValue, hx]

/-- Only a typed read can find its payload too short (R188). -/
theorem returnValue_of_none {ret : Return} {payload : List Byte} {w : State}
    (hv : resultValue ret w.cfg.payloadOrder payload = none) : returnValue ret payload w = .fault (.shortPayload w) := by
  cases ret <;> simp only [resultValue, Option.map_eq_none_iff, reduceCtorEq] at hv
  case word => simp only [returnValue, hv]
  case ticks => simp only [returnValue, hv]

theorem receive_value {payload : List Byte} {pcrc : Option Word} {v : Option Value} (hs : Started s u)
    (hw : (Instr.rspOk h payload pcrc).wf = true) (hc : CrcsAccepted u.cfg h payload pcrc)
    (hx : u.line.rx = delivers (responseBytes h payload pcrc) ++ rest)
    (hv : resultValue u.ret u.cfg.payloadOrder payload = some v) :
    ∃ t, receive u.line.rx u = .next t ∧ Responded s u t h payload pcrc rest ∧ Results t .ok v (some ⟨h, payload, pcrc⟩) := by
  obtain ⟨w, hr, hcfg, hd⟩ := receive_accepted hs hw hc hx
  exact ⟨_, hr.trans (returnValue_of_some rfl (by rw [← hv, ← hcfg]; rfl)), hd v, results_endWith ..⟩

theorem receive_short {payload : List Byte} {pcrc : Option Word} (hs : Started s u)
    (hw : (Instr.rspOk h payload pcrc).wf = true) (hc : CrcsAccepted u.cfg h payload pcrc)
    (hx : u.line.rx = delivers (responseBytes h payload pcrc) ++ rest)
    (hv : resultValue u.ret u.cfg.payloadOrder payload = none) :
    ∃ t, receive u.line.rx u = .fault (.shortPayload t) ∧ Responded s u t h payload pcrc rest ∧
      Results t .ok none (some ⟨h, payload, pcrc⟩) := by
  obtain ⟨w, hr, hcfg, hd⟩ := receive_accepted hs hw hc hx
  exact ⟨_, hr.trans (returnValue_of_none (by rw [← hv, ← hcfg]; rfl)), hd none, results_endWith ..⟩

/-- Everything a parser that has just been started can come to: its reads are cut off before a response is whole, the response is
rejected, or it is whole and accepted. -/
theorem receive_cases (hs : Started s u) :
    (∃ as w, CutOff as ∧ w.res = u.res ∧ receive u.line.rx u = receive as w) ∨
    (∃ t e, e ≠ .ok ∧ t.res = some e ∧ receive u.line.rx u = .next t) ∨
    (∃ h payload pcrc rest, (Instr.rspOk h payload pcrc).wf = true ∧ CrcsAccepted u.cfg h payload pcrc ∧
      u.line.rx = delivers (responseBytes h payload pcrc) ++ rest) := by
  rcases reads_deliver_or_cutOff 8 u.line.rx with ⟨bs, more, hl, hx⟩ | ⟨bs, more, hl, hcut, hx⟩
  case inr => exact .inl ⟨more, storeHeader bs more u, hcut, rfl, receive_headerBegun hs hl hx⟩
  obtain ⟨h, rfl⟩ := exists_responseBlock hl
  by_cases hc : u.cfg.verifyResponseCrc = true → crc16 (responseHeader h) = h.hcrc
  case neg =>
    obtain ⟨hv, hne⟩ := Classical.not_imp.mp hc
    obtain ⟨t, ho, _, hres⟩ := receive_headerMismatch hs hx hv hne
    exact .inr (.inl ⟨t, _, by decide, hres.res, ho⟩)
  by_cases hst : h.status = constants.statusOk
  case neg =>
    obtain ⟨t, ho, _, hres⟩ := receive_badStatus hs hx hc hst
    exact .inr (.inl ⟨t, _, by decide, hres.res, ho⟩)
  by_cases h0 : h.wc = 0
  case pos =>
    exact .inr (.inr ⟨h, [], none, more, rspOk_wf_iff.mpr ⟨hst, .inl ⟨h0, rfl, rfl⟩⟩, fun hv => ⟨hc hv, nofun⟩, hx⟩)
  rcases reads_deliver_or_cutOff (2 * h.wc.toNat + 2) more with ⟨ps, rest, hl, rfl⟩ | ⟨ps, rest, hl, hcut, rfl⟩
  case inr =>
    have hx : u.line.rx = delivers (responseBlock h ++ ps) ++ rest := by rw [hx, delivers_append, List.append_assoc]
    exact .inl ⟨rest, payloadBegun h ps rest u, hcut, rfl, receive_payloadBegun hs hc hst h0 hl hx⟩
  obtain ⟨p, c, hp, rfl⟩ := exists_payload_crc hl
  have hw : (Instr.rspOk h p (some c)).wf = true := rspOk_wf_iff.mpr ⟨hst, .inr ⟨h0, hp, c, rfl⟩⟩
  have hx : u.line.rx = delivers (responseBytes h p (some c)) ++ rest := by
    rw [hx, responseBytes, pcrcBytes, List.append_assoc, delivers_append (responseBlock h), List.append_assoc]
  by_cases hpc : u.cfg.verifyResponseCrc = true → crc16 p = c
  case neg =>
    obtain ⟨hv, hne⟩ := Classical.not_imp.mp hpc
    obtain ⟨t, ho, _, hres⟩ := receive_payloadMismatch hs hw hx hv (hc hv) hne
    exact .inr (.inl ⟨t, _, by decide, hres.res, ho⟩)
  exact .inr (.inr ⟨h, p, some c, rest, hw, fun hv => ⟨hc hv, by rintro _ ⟨⟩; exact hpc hv⟩, hx⟩)

theorem stateOf_returnValue {ret : Return} {payload : List Byte} {w t : State}
    (ht : stateOf (returnValue ret payload w) = some t) : ∃ v, t = { w with rval := v } := by
  rcases returnValue_cases (o := returnValue ret payload w) rfl with ⟨_, ho⟩ | ⟨v, ho⟩ | ho <;> rw [ho] at ht <;> cases ht
  · exact ⟨w.rval, rfl⟩
  · exact ⟨some v, rfl⟩
  · exact ⟨w.rval, rfl⟩

/-- A whole response that is accepted leaves `Ok` and its frame, whether or not the payload is long enough for a value. -/
theorem receive_accepted_state {payload : List Byte} {pcrc : Option Word} {t : State} (hs : Started s u)
    (hw : (Instr.rspOk h payload pcrc).wf = true) (hc : CrcsAccepted u.cfg h payload pcrc)
    (hx : u.line.rx = delivers (responseBytes h payload pcrc) ++ rest) (ht : stateOf (receive u.line.rx u) = some t) :
    ∃ v, Responded s u t h payload pcrc rest ∧ Results t .ok v (some ⟨h, payload, pcrc⟩) := by
  obtain ⟨w, hr, _, hd⟩ := receive_accepted hs hw hc hx
  rw [hr] at ht
  obtain ⟨v, rfl⟩ := stateOf_returnValue ht
  exact ⟨v, hd v, results_endWith .ok v (some ⟨h, payload, pcrc⟩) w⟩

/-- A command that ends with `Ok` was answered with a whole response that was accepted. -/
theorem receive_ok {t : State} (hs : Started s u) (hr : u.res ≠ some .ok) (ht : stateOf (receive u.line.rx u) = some t)
    (hok : t.res = some .ok) :
    ∃ h payload pcrc rest v, (Instr.rspOk h payload pcrc).wf = true ∧ CrcsAccepted u.cfg h payload pcrc ∧
      u.line.rx = delivers (responseBytes h payload pcrc) ++ rest ∧ Responded s u t h payload pcrc rest ∧
      Results t .ok v (some ⟨h, payload, pcrc⟩) := by
  rcases receive_cases hs with ⟨as, w, hcut, hw, ho⟩ | ⟨t', e, he, hres, ho⟩ | ⟨h, payload, pcrc, rest, hwf, hc, hx⟩
  · rw [ho] at ht
    exact absurd hok (receive_cutOff_res hcut (hw ▸ hr) ht)
  · rw [ho] at ht
    cases ht
    exact absurd (Option.some.inj (hres.symm.trans hok)) he
  · obtain ⟨v, hresp, hres⟩ := receive_accepted_state hs hwf hc hx ht
    exact ⟨h, payload, pcrc, rest, v, hwf, hc, hx, hresp, hres⟩

end

end Sys2Proof.Machine
end

section
/-! PROOF. How a response that arrives at a waiting parser ends the command (R141 to R147, R188), and how the response to an accepted
command ends it: cut short, rejected, or accepted (R139 to R148, R152, R251). -/

namespace Sys2Proof.Machine

/-! ### A response that arrives -/

/-- A response that arrives at a parser that holds nothing is the parser over its bytes. -/
theorem Receiving.exec_response {i : Instr} {s : State} (h : Receiving s) (hw : i.wf = true) (hc : i.isCommand = false) :
    exec i s = receive (delivers (encode s.cfg s.seq i)) { s with line := { s.line with rx := delivers (encode s.cfg s.seq i) } } := by
  rw [Machine.exec_response (seq := s.seq) hw hc, arrive_receiving (.inl h.ph), h.rx]
  rfl

/-- When everything that arrived has been read, the receive side is empty again. -/
theorem Receiving.received {s t : State} {rx : List ReadAnswer} {bs : List Byte} (h : Receiving s)
    (he : EndedAfter { s with line := { s.line with rx := rx } } t (delivers bs) []) : Received s t bs := by
  have hs : ({ s with line := { s.line with rx := [] } } : State) = s := by
    rw [← h.rx]
  exact hs ▸ he.received

/-- Settles O25. -/
theorem goodResponseEndsTheCommand : Obligations.GoodResponseEndsTheCommand := by
  intro s h payload pcrc v hs hw hc hv
  obtain ⟨t, ho, hr, hres⟩ := receive_value (hs.started (delivers (responseBytes h payload pcrc))) hw hc
    (List.append_nil _).symm hv
  exact ⟨t, (hs.exec_response hw rfl).trans ho, hs.received hr.ended, hr.header, hr.registers, hres⟩

/-- Settles O26: the header CRC first, then the payload CRC, then the length of the payload. -/
theorem goodStatusResponseMayStillFail : Obligations.GoodStatusResponseMayStillFail := by
  refine ⟨fun s h payload pcrc hs hw hv hc => ?_, fun s h payload c hs hw hv hc hp => ?_, fun s h payload pcrc hs hw hc hv => ?_⟩
  · obtain ⟨t, ho, hr, hres⟩ := receive_headerMismatch (hs.started (delivers (responseBytes h payload pcrc)))
      (rest := delivers (payload ++ pcrcBytes pcrc))
      (show delivers (responseBytes h payload pcrc) = _ by rw [responseBytes, List.append_assoc, delivers_append]) hv hc
    exact ⟨t, (hs.exec_response hw rfl).trans ho, hr.ended.received, hr.header, hr.registers.1, hr.registers.2, hres⟩
  · obtain ⟨t, ho, hr, hres⟩ := receive_payloadMismatch (hs.started (delivers (responseBytes h payload (some c)))) hw
      (List.append_nil _).symm hv hc hp
    exact ⟨t, (hs.exec_response hw rfl).trans ho, hs.received hr.ended, hr.header, hr.registers, hres⟩
  · obtain ⟨t, ho, hr, hres⟩ := receive_short (hs.started (delivers (responseBytes h payload pcrc))) hw hc
      (List.append_nil _).symm hv
    exact ⟨t, (hs.exec_response hw rfl).trans ho, hs.received hr.ended, hr.header, hr.registers, hres⟩

/-- Settles O27: an enforced header CRC comes before the status flag. -/
theorem errorResponseEndsTheCommand : Obligations.ErrorResponseEndsTheCommand := by
  intro s h hs hw
  have hst : h.status ≠ constants.statusOk := by simpa [Instr.wf, statusIsOk] using hw
  have hu := hs.started (delivers (responseBlock h))
  have hx := (List.append_nil (delivers (responseBlock h))).symm
  have hexec := hs.exec_response hw rfl
  split
  · next hv =>
    obtain ⟨t, ho, hr, hres⟩ := receive_headerMismatch hu hx hv.1 hv.2
    exact ⟨t, hexec.trans ho, hs.received hr.ended, hr.header, hr.registers.1, hr.registers.2, hres⟩
  · next hv =>
    obtain ⟨t, ho, hr, hres⟩ := receive_badStatus hu hx (fun h1 => by_contra fun h2 => hv ⟨h1, h2⟩) hst
    exact ⟨t, hexec.trans ho, hs.received hr.ended, hr.header, hr.registers.1, hr.registers.2, hres⟩

/-! ### The response to a command -/

section
variable {i : Instr} {s : State} {r : Request} {reads : List ReadAnswer}

/-- An accepted command whose request was taken whole is the parser over the reads. -/
theorem Accepted.exec_sent (ha : Accepted i s r) (hr : Ready s (encodeRequest s.seq r).length reads) :
    exec i s = receive (requestSent r (returnOf i) s).line.rx (requestSent r (returnOf i) s) ∧
      (requestSent r (returnOf i) s).line.rx = reads :=
  ⟨(exec_ready ha hr).trans (congrArg (receive · _) hr.arrives.symm), hr.arrives⟩

/-- A transaction gets no response, and then no `Ok`, or its request was taken whole. -/
theorem xact_cases (r : Request) (ret : Return) (hi : s.ph = .idle) :
    (∃ ph res es, EndsWithoutResponse r ret s ph res es ∧ res ≠ some .ok) ∨
    xact r ret s = receive (requestSent r ret s).line.rx (requestSent r ret s) := by
  cases hp : s.line.purges with
  | nil => exact .inl ⟨_, _, _, xact_purgeUnanswered hi hp, nofun⟩
  | cons p ps =>
    cases p with
    | ioError => exact .inl ⟨_, _, _, xact_purgeFailed hi hp, nofun⟩
    | ok =>
      cases hw : s.line.writes with
      | nil => exact .inl ⟨_, _, _, xact_writeUnanswered hi hp hw, nofun⟩
      | cons x ws =>
        by_cases hx : x = .written (encodeRequest s.seq r).length
        · exact .inr (xact_sent hi (by rw [hp]; rfl) (by rw [hw, hx]; rfl))
        · exact .inl ⟨_, _, _, xact_writeFailed hi hp hw hx, nofun⟩

/-- A command that ends with `Ok` had its request taken whole. -/
theorem Accepted.exec_of_ok {t : State} (ha : Accepted i s r) (ht : stateOf (exec i s) = some t) (hok : t.res = some .ok) :
    exec i s = receive (requestSent r (returnOf i) s).line.rx (requestSent r (returnOf i) s) := by
  rw [exec_command ha.wf ha.request] at ht ⊢
  rcases xact_cases r (returnOf i) ha.idle with ⟨ph, res, es, ⟨t', ho, hend⟩, hne⟩ | ho
  · rw [ho] at ht
    cases ht
    exact absurd (hend.res.symm.trans hok) hne
  · exact ho

end

/-- Settles O31: the bytes are stored, and the next read fails. -/
theorem headerCutShortEndsTheCommand : Obligations.HeaderCutShortEndsTheCommand := by
  intro i s r bs a e rest ha hl he hr
  obtain ⟨hexec, hx⟩ := ha.exec_sent hr
  refine ⟨raise e (tRead1 a rest (storeHeader bs (a :: rest) (requestSent r (returnOf i) s))), ?_, ?_, ?_, ?_,
    ⟨rfl, rfl, rfl, rfl⟩, ⟨rfl, rfl, rfl, rfl, rfl, rfl, rfl, rfl, rfl⟩, rfl, ⟨rfl, rfl, rfl⟩⟩
  · rw [hexec, receive_headerBegun (started_requestSent r (returnOf i) s) hl hx, receive_fails he]
  · exact EndedAfter.exchanged ⟨rfl, rfl, rfl, rfl, rfl, rfl, rfl, by simp [storeHeader, delivers], rfl, rfl, rfl⟩
  · simp [storeHeader, requestSent]
  · exact Nat.zero_add _

/-- Settles O32: the header is taken, the bytes are stored, and the next read fails. -/
theorem payloadCutShortEndsTheCommand : Obligations.PayloadCutShortEndsTheCommand := by
  intro i s r h bs a e rest ha hst h0 hc hl he hr
  obtain ⟨hexec, hx⟩ := ha.exec_sent hr
  refine ⟨raise e (tRead1 a rest (payloadBegun h bs (a :: rest) (requestSent r (returnOf i) s))), ?_, ?_,
    ⟨rfl, rfl, rfl, rfl, rfl, rfl⟩, rfl, rfl, rfl, rfl, rfl, rfl, rfl, rfl, rfl, rfl, ⟨rfl, rfl, rfl⟩⟩
  · rw [hexec, receive_payloadBegun (started_requestSent r (returnOf i) s) (fun hv => (hc hv).1) hst h0 hl hx, receive_fails he]
  · exact EndedAfter.exchanged ⟨rfl, rfl, rfl, rfl, rfl, rfl, rfl, by simp [payloadBegun], rfl, rfl, rfl⟩

/-- Settles O33. -/
theorem badStatusEndsTheCommandAtOnce : Obligations.BadStatusEndsTheCommandAtOnce := by
  intro i s r h rest ha hst hc hr
  obtain ⟨hexec, hx⟩ := ha.exec_sent hr
  obtain ⟨t, ho, hresp, hres⟩ := receive_badStatus (started_requestSent r (returnOf i) s) hx (fun hv => (hc hv).1) hst
  exact ⟨t, hexec.trans ho, hresp.ended.exchanged, hresp.header, hresp.registers.1, hresp.registers.2, hres⟩

/-- Settles O34. -/
theorem headerCrcMismatchComesBeforeTheStatus : Obligations.HeaderCrcMismatchComesBeforeTheStatus := by
  intro i s r h rest ha hv hc hr
  obtain ⟨hexec, hx⟩ := ha.exec_sent hr
  obtain ⟨t, ho, hresp, hres⟩ := receive_headerMismatch (started_requestSent r (returnOf i) s) hx hv hc
  exact ⟨t, hexec.trans ho, hresp.ended.exchanged, hresp.header, hresp.registers.1, hresp.registers.2, hres⟩

/-- Settles O35. -/
theorem payloadCrcMismatchEndsTheCommand : Obligations.PayloadCrcMismatchEndsTheCommand := by
  intro i s r h payload c rest ha hw hv hc hp hr
  obtain ⟨hexec, hx⟩ := ha.exec_sent hr
  obtain ⟨t, ho, hresp, hres⟩ := receive_payloadMismatch (started_requestSent r (returnOf i) s) hw hx hv hc hp
  exact ⟨t, hexec.trans ho, hresp.ended.exchanged, hresp.header, hresp.registers, hres⟩

/-- A header block with status flag 1 and what follows it, as long as it announces, are a good response (R84). -/
theorem exists_rspOk {h : RspHeader} {tail : List Byte} (hst : h.status = constants.statusOk)
    (hl : tail.length = if h.wc = 0 then 0 else 2 * h.wc.toNat + 2) :
    ∃ payload pcrc, (Instr.rspOk h payload pcrc).wf = true ∧ responseBytes h payload pcrc = responseBlock h ++ tail := by
  by_cases h0 : h.wc = 0
  · rw [if_pos h0] at hl
    obtain rfl := List.eq_nil_of_length_eq_zero hl
    exact ⟨[], none, rspOk_wf_iff.mpr ⟨hst, .inl ⟨h0, rfl, rfl⟩⟩, rfl⟩
  · rw [if_neg h0] at hl
    obtain ⟨p, c, hp, rfl⟩ := exists_payload_crc hl
    exact ⟨p, some c, rspOk_wf_iff.mpr ⟨hst, .inr ⟨h0, hp, c, rfl⟩⟩, List.append_assoc ..⟩

/-- What follows the header block of a good response is as long as the header announces (R84). -/
theorem rspOk_tail_length {h : RspHeader} {payload : List Byte} {pcrc : Option Word}
    (hw : (Instr.rspOk h payload pcrc).wf = true) :
    (payload ++ pcrcBytes pcrc).length = if h.wc = 0 then 0 else 2 * h.wc.toNat + 2 := by
  obtain ⟨_, ⟨h0, rfl, rfl⟩ | ⟨h0, hl, c, rfl⟩⟩ := rspOk_wf_iff.mp hw
  · rw [if_pos h0]
    rfl
  · rw [if_neg h0, List.length_append, hl]
    rfl

/-- Settles O55: only a whole response is accepted (`receive_ok`), and with CRCs not enforced every whole one is. -/
theorem acceptedExactlyWhenEnoughBytesArrive : Obligations.AcceptedExactlyWhenEnoughBytesArrive := by
  intro i s t r reads ha hv hr ht
  obtain ⟨hexec, hx⟩ := ha.exec_sent hr
  have hs := started_requestSent r (returnOf i) s
  rw [hexec] at ht
  constructor
  · intro hok
    obtain ⟨h, payload, pcrc, rest, v, hw, _, hrx, _⟩ := receive_ok hs nofun ht hok
    refine ⟨h, payload ++ pcrcBytes pcrc, rest, ?_, (rspOk_wf_iff.mp hw).1, rspOk_tail_length hw⟩
    rw [← hx, hrx, responseBytes, List.append_assoc]
  · rintro ⟨h, tail, rest, hreads, hst, hl⟩
    obtain ⟨payload, pcrc, hw, hbytes⟩ := exists_rspOk hst hl
    have hc : CrcsAccepted s.cfg h payload pcrc := fun h => by simp [hv] at h
    obtain ⟨v, _, hres⟩ := receive_accepted_state hs hw hc (hx.trans (by rw [hreads, hbytes])) ht
    exact hres.res

/-- Settles O56: the response is accepted with the payload in its frame, whether or not the command finds a value in it. -/
theorem deliveredPayloadIsRecovered : Obligations.DeliveredPayloadIsRecovered := by
  intro i s r h payload c rest ha hst h0 hl hc hr
  obtain ⟨hexec, hx⟩ := ha.exec_sent hr
  have hs := started_requestSent r (returnOf i) s
  have hw : (Instr.rspOk h payload (some c)).wf = true := rspOk_wf_iff.mpr ⟨hst, .inr ⟨h0, hl, c, rfl⟩⟩
  cases hv : resultValue (returnOf i) s.cfg.payloadOrder payload with
  | some v =>
    obtain ⟨t, ho, _, hres⟩ := receive_value hs hw hc hx hv
    exact ⟨t, _, hres.res, hres.rframe, rfl, fun _ => hexec.trans ho, nofun⟩
  | none =>
    obtain ⟨t, ho, _, hres⟩ := receive_short hs hw hc hx hv
    exact ⟨t, _, hres.res, hres.rframe, rfl, fun hne => absurd rfl hne, fun _ => hexec.trans ho⟩

/-- Settles O58: the command was answered with a whole response that was accepted, so both enforced CRCs were right. -/
theorem enforcedCrcsAgreeOnSuccess : Obligations.EnforcedCrcsAgreeOnSuccess := by
  intro i s t r ha hv ht hok
  rw [ha.exec_of_ok ht hok] at ht
  obtain ⟨h, payload, pcrc, rest, v, hw, hc, _, hresp, hres⟩ :=
    receive_ok (started_requestSent r (returnOf i) s) nofun ht hok
  obtain ⟨hhdr, hpay⟩ := hc hv
  refine ⟨_, hres.rframe, hresp.header.hcrcValid, hresp.header.hcrcOk.trans (by simp [hhdr]), hhdr.symm, fun hne => ?_⟩
  obtain ⟨_, ⟨_, hnil, _⟩ | ⟨_, _, c, rfl⟩⟩ := rspOk_wf_iff.mp hw
  · exact absurd hnil hne
  · have hcrc : crc16 payload = c := hpay c rfl
    have htaken : PayloadTaken s t payload c := hresp.registers
    exact ⟨htaken.pcrcValid, htaken.pcrcOk.trans (by simp [hcrc]), congrArg some hcrc.symm⟩

end Sys2Proof.Machine
end

section
/-! PROOF. What an instruction and a step can end in (R176, R188, R195): an answer ends in a next state or, for a typed read alone, in the
fault of a short payload; a block is stuck only in a primitive that is not answered. -/

namespace Sys2Proof.Machine

/-! ### A next state, or a typed read's short payload -/

/-- The rules that take a number from the payload, and so need it long enough (R187 to R189). -/
def Return.isTyped (ret : Return) : Prop :=
  ret = .word ∨ ret = .ticks

/-- A next state, or, where the rule `ret` takes a number from the payload, the short payload of a command that has ended. -/
def EndsAs (ret : Return) (o : Result) : Prop :=
  (∃ t, o = .next t) ∨ (ret.isTyped ∧ ∃ t, t.ph = .idle ∧ o = .fault (.shortPayload t))

theorem EndsAs.next (ret : Return) (t : State) : EndsAs ret (.next t) :=
  .inl ⟨t, rfl⟩

theorem EndsAs.of_fault {ret : Return} {f : Fault} (h : EndsAs ret (.fault f)) :
    ret.isTyped ∧ ∃ t, t.ph = .idle ∧ f = .shortPayload t := by
  rcases h with ⟨t, h⟩ | ⟨hr, t, ht, h⟩ <;> cases h
  exact ⟨hr, t, ht, rfl⟩

theorem returnValue_endsAs {ret : Return} {p : List Byte} {s : State} (hs : s.ph = .idle) :
    EndsAs ret (returnValue ret p s) := by
  rcases returnValue_cases (o := returnValue ret p s) rfl with ⟨_, ho⟩ | ⟨v, ho⟩ | ho <;> rw [ho]
  · exact .next ret _
  · exact .next ret _
  · cases ret with
    | nothing => cases ho
    | payload => cases ho
    | word => exact .inr ⟨.inl rfl, s, hs, rfl⟩
    | ticks => exact .inr ⟨.inr rfl, s, hs, rfl⟩

theorem finish_endsAs (s : State) : EndsAs s.ret (finish s) :=
  returnValue_endsAs rfl

theorem headerDone_endsAs (s : State) : EndsAs s.ret (headerDone s) := by
  rcases headerDone_cases (o := headerDone s) rfl with ⟨_, _, ho⟩ | ⟨_, ⟨_, ho⟩ | ⟨_, _, ho⟩ | ⟨_, _, ho⟩⟩ <;> rw [ho]
  · exact .next s.ret _
  · exact .next s.ret _
  · exact finish_endsAs { setHeaderCrcFlags s with rxPLen := 0 }
  · exact .next s.ret _

theorem payloadDone_endsAs (s : State) : EndsAs s.ret (payloadDone s) := by
  rcases payloadDone_cases (o := payloadDone s) rfl with ⟨_, _, ho⟩ | ⟨_, ho⟩ <;> rw [ho]
  · exact .next s.ret _
  · exact finish_endsAs (setPayloadCrcFlags s)

theorem onHeaderByte_endsAs (b : Byte) (s : State) : EndsAs s.ret (onHeaderByte b s) := by
  rcases onHeaderByte_cases b s with ⟨_, ho⟩ | ⟨_, ho⟩ <;> rw [ho]
  · exact .next s.ret _
  · exact headerDone_endsAs (storeHeaderByte b s)

theorem onPayloadByte_endsAs (b : Byte) (s : State) : EndsAs s.ret (onPayloadByte b s) := by
  rcases onPayloadByte_cases b s with ⟨_, ho⟩ | ⟨_, _, ho⟩ | ⟨_, _, ho⟩ <;> rw [ho]
  · exact .next s.ret _
  · exact .next s.ret _
  · exact payloadDone_endsAs (storeCrcByte b s)

theorem onByte_endsAs (b : Byte) (s : State) : EndsAs s.ret (onByte b s) := by
  cases hp : s.ph <;> simp only [onByte, hp]
  case rxHeader => exact onHeaderByte_endsAs b s
  case rxPayload => exact onPayloadByte_endsAs b s
  all_goals exact .next s.ret s

/-- An answered read goes on, ends the command, or finds the payload of a typed read too short (R188). -/
theorem onRead_endsAs (a : ReadAnswer) (rest : List ReadAnswer) (s : State) : EndsAs s.ret (onRead a rest s) := by
  cases a with
  | byte b => exact onByte_endsAs b (tRead1 (.byte b) rest s)
  | noData => exact .next s.ret _
  | ioError => exact .next s.ret _

theorem Reads.ret {s t : State} (h : Reads s t) : t.ret = s.ret := by
  cases h <;> rfl

theorem receive_endsAs {s : State} (hp : s.ph = .rxHeader ∨ s.ph = .rxPayload) :
    EndsAs s.ret (receive s.line.rx s) := by
  refine receive_induct (P := fun u => (u.ph = .rxHeader ∨ u.ph = .rxPayload) ∧ u.ret = s.ret) (Q := EndsAs s.ret)
    (fun a rest u hu _ _ => ?_) (fun u _ _ _ => .next s.ret u) s.line.rx s ⟨hp, rfl⟩
    (by rcases hp with h | h <;> simp [h]) rfl
  obtain ⟨hu, hret⟩ := hu
  have hend : EndsAs s.ret (onRead a rest u) := hret ▸ onRead_endsAs a rest u
  refine ⟨fun t ht hi => ⟨⟨(onRead_advances hu ht hi).receiving, ?_⟩, onRead_rx ht⟩, fun t ht _ => ht ▸ hend,
    fun f hf => hf ▸ hend, fun r hr => hr ▸ hend⟩
  exact (onRead_reads hu (by rw [ht]; rfl)).ret.trans hret

theorem arrive_endsAs (bs : List Byte) (s : State) : EndsAs s.ret (arrive bs s) := by
  by_cases hp : s.ph = .rxHeader ∨ s.ph = .rxPayload
  · rw [arrive_receiving hp]
    exact receive_endsAs (s := { s with line := { s.line with rx := s.line.rx ++ delivers bs } }) hp
  · obtain ⟨h1, h2⟩ := not_or.mp hp
    rw [arrive_waiting h1 h2]
    exact .next s.ret _

theorem xact_endsAs {r : Request} {ret : Return} {s : State} (hi : s.ph = .idle) : EndsAs ret (xact r ret s) := by
  rcases xact_cases r ret hi with ⟨_, _, _, ⟨t, ho, _⟩, _⟩ | ho <;> rw [ho]
  · exact .next ret t
  · exact receive_endsAs (s := requestSent r ret s) (.inl rfl)

/-! ### Refusals -/

/-- A well-formed command is refused in every phase but `Idle` (R176, R194). -/
theorem exec_overlap {i : Instr} {s : State} (hc : i.isCommand = true) (hw : i.wf = true) (hp : s.ph ≠ .idle) :
    exec i s = .refused .overlap := by
  obtain ⟨r, hr⟩ := isCommand_request s.cfg hc
  rw [exec_command hw hr, xact_busy hp]

/-- Settles O37: the list is checked before the phase (log entry 21). -/
theorem illFormedAndOverlappingCommandsAreRefused : Obligations.IllFormedAndOverlappingCommandsAreRefused := by
  refine ⟨fun idx off wc words s hl => exec_illFormed ?_, fun i s hc hw hp => exec_overlap hc hw hp⟩
  simpa [Instr.wf, wordsMatch] using hl

/-! ### Faults -/

theorem xact_fault {r : Request} {ret : Return} {s : State} {f : Fault} (h : xact r ret s = .fault f) :
    ret.isTyped ∧ ∃ t, t.ph = .idle ∧ f = .shortPayload t := by
  by_cases hi : s.ph = .idle
  · exact (h ▸ xact_endsAs hi : EndsAs ret (.fault f)).of_fault
  · rw [xact_busy hi] at h
    cases h

theorem arrive_fault {bs : List Byte} {s : State} {f : Fault} (h : arrive bs s = .fault f) : ∃ t, f = .shortPayload t := by
  obtain ⟨_, t, _, hf⟩ := (h ▸ arrive_endsAs bs s : EndsAs s.ret (.fault f)).of_fault
  exact ⟨t, hf⟩

/-- The commands whose rule takes a number from the payload are the two typed reads (R187, R189). -/
theorem returnOf_isTyped {i : Instr} (h : (returnOf i).isTyped) : i = .getPositionTicks ∨ ∃ sel, i = .getStatus sel := by
  cases i
  case getPositionTicks => exact .inl rfl
  case getStatus sel => exact .inr ⟨sel, rfl⟩
  all_goals rcases h with h | h <;> cases h

/-- Settles O41: a command is a transaction that ends as its rule allows, a response is the arrival of bytes, and what is ill-formed is
refused. -/
theorem onlyTypedReadsFault : Obligations.OnlyTypedReadsFault := by
  intro i s f h
  cases hw : i.wf with
  | false =>
    rw [exec_illFormed hw] at h
    cases h
  | true =>
    cases hc : i.isCommand with
    | true =>
      obtain ⟨r, hr⟩ := isCommand_request s.cfg hc
      rw [exec_command hw hr] at h
      obtain ⟨htyped, t, _, hf⟩ := xact_fault h
      exact ⟨⟨t, hf⟩, fun _ => returnOf_isTyped htyped⟩
    | false =>
      rw [exec_response (seq := s.seq) hw hc] at h
      exact ⟨arrive_fault h, nofun⟩

/-! ### The stuck block -/

theorem exec_not_stuck (i : Instr) (s : State) : exec i s ≠ .fault .transportStuck := by
  intro h
  obtain ⟨⟨t, ht⟩, _⟩ := onlyTypedReadsFault i s _ h
  cases ht

theorem arrive_not_stuck (bs : List Byte) (s : State) : arrive bs s ≠ .fault .transportStuck := by
  intro h
  obtain ⟨t, ht⟩ := arrive_fault h
  cases ht

/-- A phase that has an answer is not stuck, so a stuck one has none. -/
theorem eq_none_of_stuck {p : Option Result} (hp : ∀ o, p = some o → o ≠ .fault .transportStuck)
    (h : p.getD (.fault .transportStuck) = .fault .transportStuck) : p = none := by
  cases p with
  | none => rfl
  | some o => exact absurd h (hp o rfl)

theorem purgePhase_not_stuck {s : State} {o : Result} (h : purgePhase s = some o) : o ≠ .fault .transportStuck := by
  rcases purgePhase_cases h with ⟨_, _, rfl⟩ | ⟨_, _, rfl⟩ <;> nofun

theorem sendPhase_not_stuck {s : State} {o : Result} (h : sendPhase s = some o) : o ≠ .fault .transportStuck := by
  rcases sendPhase_cases h with ⟨_, _, rfl⟩ | ⟨_, _, _, _, rfl⟩ <;> nofun

theorem readPhase_not_stuck {s : State} {o : Result} (h : readPhase s = some o) : o ≠ .fault .transportStuck := by
  obtain ⟨a, rest, _, rfl⟩ := readPhase_cases h
  intro hs
  obtain ⟨_, t, _, ht⟩ := (hs ▸ onRead_endsAs a rest s : EndsAs s.ret (.fault .transportStuck)).of_fault
  cases ht

theorem tick_receiving_stuck {s : State} (hp : s.ph = .rxHeader ∨ s.ph = .rxPayload)
    (h : tick s = .fault .transportStuck) : s.line.rx = [] := by
  rw [tick_receiving hp] at h
  exact readPhase_eq_none.mp (eq_none_of_stuck (fun _ => readPhase_not_stuck) h)

/-- The small step is stuck only in a primitive that is not answered (U17). -/
theorem tick_stuck {s : State} (h : tick s = .fault .transportStuck) :
    (s.ph = .purging ∧ s.line.purges = []) ∨ (s.ph = .sending ∧ s.line.writes = []) ∨
      ((s.ph = .rxHeader ∨ s.ph = .rxPayload) ∧ s.line.rx = []) := by
  cases hp : s.ph with
  | idle =>
    rw [tick_idle hp] at h
    cases h
  | purging =>
    rw [tick_purging hp] at h
    exact .inl ⟨rfl, purgePhase_eq_none.mp (eq_none_of_stuck (fun _ => purgePhase_not_stuck) h)⟩
  | sending =>
    rw [tick_sending hp] at h
    exact .inr (.inl ⟨rfl, sendPhase_eq_none.mp (eq_none_of_stuck (fun _ => sendPhase_not_stuck) h)⟩)
  | flushing =>
    rw [tick_flushing hp] at h
    cases h
  | rxHeader => exact .inr (.inr ⟨.inl rfl, tick_receiving_stuck (.inl hp) h⟩)
  | rxPayload => exact .inr (.inr ⟨.inr rfl, tick_receiving_stuck (.inr hp) h⟩)

/-- Settles O47: of all a step can be, only the small step of a block with no input at hand can be stuck. -/
theorem blockIsStuckOnlyUnanswered : Obligations.BlockIsStuckOnlyUnanswered := by
  intro s h
  rcases step_cases s with ⟨i, rest, _, ho⟩ | ⟨bs, i, tail, rest, _, _, ho⟩ | ⟨bs, rest, _, ho⟩ | ⟨rest, _, ho⟩ |
    ⟨ticks, rest, _, ho⟩ | ⟨_, _, ho⟩ | ⟨_, _, ho⟩ | ⟨hi, ho⟩ <;> rw [ho] at h
  · exact absurd h (exec_not_stuck _ _)
  · exact absurd h (exec_not_stuck _ _)
  · exact absurd h (arrive_not_stuck _ _)
  · cases h
  · exact absurd h (exec_not_stuck _ _)
  · exact absurd h (exec_not_stuck _ _)
  · cases h
  · exact ⟨hi, tick_stuck h⟩

end Sys2Proof.Machine
end

section
/-! PROOF. How an accepted response ends each command (R173 to R193), by the value its rule takes from the payload. -/

namespace Sys2Proof.Machine

/-! ### The value of a payload -/

/-- The first word of a payload, byte by byte (R90). -/
theorem bytesToU16_cons (o : PayloadOrder) (b0 b1 : Byte) (more : List Byte) :
    bytesToU16 o (b0 :: b1 :: more) = some (match o with | .le => b1 ++ b0 | .be => b0 ++ b1) := by
  cases o <;> rfl

/-- Two words side by side are their four bytes side by side. -/
theorem wordOf_append_wordOf (b0 b1 b2 b3 : Byte) : wordOf b0 b1 ++ wordOf b2 b3 = b0 ++ b1 ++ b2 ++ b3 :=
  (BitVec.append_assoc (x₁ := b0 ++ b1) (x₂ := b2) (x₃ := b3)).symm

/-- The first two words of a payload, byte by byte (R90). -/
theorem bytesToU32_cons (o : PayloadOrder) (b0 b1 b2 b3 : Byte) (more : List Byte) :
    bytesToU32 o (b0 :: b1 :: b2 :: b3 :: more) =
      some (match o with | .le => b3 ++ b2 ++ b1 ++ b0 | .be => b0 ++ b1 ++ b2 ++ b3) := by
  cases o
  case le => exact congrArg some (wordOf_append_wordOf b3 b2 b1 b0)
  case be => exact congrArg some (wordOf_append_wordOf b0 b1 b2 b3)

/-! ### The command and its response -/

section
variable {i : Instr} {s : State} {r : Request} {h : RspHeader} {payload : List Byte} {pcrc : Option Word} {rest : List ReadAnswer}

/-- A command whose response is acceptable ends with the value its rule takes from the payload (R146, R170). -/
theorem Answered.completed {v : Option Value} (ha : Answered i s r h payload pcrc rest)
    (hv : resultValue (returnOf i) s.cfg.payloadOrder payload = some v) :
    ∃ t, exec i s = .next t ∧ Completed s t r (returnOf i) h payload pcrc v rest := by
  obtain ⟨hexec, hx⟩ := ha.accepted.exec_sent ha.ready
  obtain ⟨t, ho, hresp, hres⟩ := receive_value (started_requestSent r (returnOf i) s) ha.response ha.crcs hx hv
  exact ⟨t, hexec.trans ho, hresp.ended.exchanged, hresp.header, hresp.registers, hres⟩

/-- A command whose rule finds the payload of an acceptable response too short faults, with the registers of success but no value
(R188, log entry 10). -/
theorem Answered.short (ha : Answered i s r h payload pcrc rest)
    (hv : resultValue (returnOf i) s.cfg.payloadOrder payload = none) :
    ∃ t, exec i s = .fault (.shortPayload t) ∧ Completed s t r (returnOf i) h payload pcrc none rest := by
  obtain ⟨hexec, hx⟩ := ha.accepted.exec_sent ha.ready
  obtain ⟨t, ho, hresp, hres⟩ := receive_short (started_requestSent r (returnOf i) s) ha.response ha.crcs hx hv
  exact ⟨t, hexec.trans ho, hresp.ended.exchanged, hresp.header, hresp.registers, hres⟩

/-- A write ends with no value, whatever the payload of its response (R193). -/
theorem Answered.completed_write (ha : Answered i s r h payload pcrc rest) (hi : returnOf i = .nothing) :
    ∃ t, exec i s = .next t ∧ Completed s t r .nothing h payload pcrc none rest :=
  hi ▸ ha.completed (v := none) (by rw [hi]; rfl)

/-- A read of bytes ends with the payload as received (R174). -/
theorem Answered.completed_read (ha : Answered i s r h payload pcrc rest) (hi : returnOf i = .payload) :
    ∃ t, exec i s = .next t ∧ Completed s t r .payload h payload pcrc (some (.bytes payload)) rest :=
  hi ▸ ha.completed (v := some (.bytes payload)) (by rw [hi]; rfl)

end

/-! ### The commands

That a command sends the request a statement writes out for it is part of `Answered`: it is the only request the command has (R91). -/

/-- Settles O18. -/
theorem readRegReturnsThePayload : Obligations.ReadRegReturnsThePayload :=
  fun _ _ _ _ _ _ _ _ ha => ha.completed_read rfl

/-- Settles O19. -/
theorem writeRegEndsWithoutAValue : Obligations.WriteRegEndsWithoutAValue :=
  fun _ _ _ _ _ _ _ _ _ _ _ _ ha => ha.completed_write rfl

/-- Settles O20. -/
theorem oneWordWritesEndWithoutAValue : Obligations.OneWordWritesEndWithoutAValue := by
  intro i a v s r h payload pcrc rest hm _ ha
  refine ha.completed_write ?_
  simp only [List.mem_cons, List.not_mem_nil, or_false, Prod.mk.injEq] at hm
  rcases hm with ⟨rfl, _⟩ | ⟨rfl, _⟩ | ⟨rfl, _⟩ | ⟨rfl, _⟩ | ⟨rfl, _⟩ | ⟨rfl, _⟩ | ⟨rfl, _⟩ <;> rfl

/-- Settles O21. -/
theorem tickWritesEndWithoutAValue : Obligations.TickWritesEndWithoutAValue := by
  intro i a ticks s r h payload pcrc rest hm _ ha
  refine ha.completed_write ?_
  simp only [List.mem_cons, List.not_mem_nil, or_false, Prod.mk.injEq] at hm
  rcases hm with ⟨rfl, _⟩ | ⟨rfl, _⟩ <;> rfl

/-- Settles O22. -/
theorem getPositionTicksReturnsTheFirstTwoWords : Obligations.GetPositionTicksReturnsTheFirstTwoWords := by
  intro s r h b0 b1 b2 b3 more pcrc rest _ ha
  exact ha.completed (congrArg (Option.map fun v => some (Value.u32 v)) (bytesToU32_cons _ b0 b1 b2 b3 more))

/-- Settles O23. -/
theorem getStatusReturnsTheFirstWord : Obligations.GetStatusReturnsTheFirstWord := by
  intro sel s r h b0 b1 more pcrc rest _ ha
  exact ha.completed (congrArg (Option.map fun v => some (Value.u16 v)) (bytesToU16_cons _ b0 b1 more))

/-- Settles O24. -/
theorem infoReadsReturnThePayload : Obligations.InfoReadsReturnThePayload := by
  intro i a wc s r h payload pcrc rest hm _ ha
  refine ha.completed_read ?_
  simp only [List.mem_cons, List.not_mem_nil, or_false, Prod.mk.injEq] at hm
  rcases hm with ⟨rfl, _⟩ | ⟨rfl, _⟩ <;> rfl

/-- Settles O36: each typed read's value is absent exactly below the length it needs. -/
theorem shortPayloadFaultsTheTypedReads : Obligations.ShortPayloadFaultsTheTypedReads := by
  rintro i s r h payload pcrc rest (⟨rfl, hl⟩ | ⟨⟨sel, rfl⟩, hl⟩) ha
  · exact ha.short (Option.map_eq_none_iff.mpr ((bytesToU32_eq_none_iff _ _).mpr hl))
  · exact ha.short (Option.map_eq_none_iff.mpr ((bytesToU16_eq_none_iff _ _).mpr hl))

end Sys2Proof.Machine
end

section
/-! PROOF. What every command has in common (R170, R171, R192, R195): how a failed purge or write ends it, that it uses one sequence number
whatever becomes of it, and that it ends where the transport answers. -/

namespace Sys2Proof.Machine

/-! ### The transport fails before there is a response -/

/-- Settles O29: the command is accepted, and the purge raises. -/
theorem failedPurgeEndsTheCommand : Obligations.FailedPurgeEndsTheCommand := by
  intro i s r ha hp
  obtain ⟨ps, hps⟩ := List.head?_eq_some_iff.mp hp
  rw [exec_command ha.wf ha.request, xact_idle ha.idle, transact_purgeFailed (s := accept r (returnOf i) s) hps]
  simp [raise, record, accept, clearCrcFlags, latch, ha.idle, hps]

/-- Settles O30: the command is accepted, the purge succeeds, the request is loaded, and the write raises. -/
theorem failedWriteEndsTheCommand : Obligations.FailedWriteEndsTheCommand := by
  intro i s r a ha hp hw hne
  obtain ⟨ps, hps⟩ := List.head?_eq_some_iff.mp hp
  obtain ⟨ws, hws⟩ := List.head?_eq_some_iff.mp hw
  rw [exec_command ha.wf ha.request, xact_purged ha.idle hps, sendAndReceive_failed (a := a) (ws := ws)]
  · simp [raise, record, loadRequest, accept, clearCrcFlags, latch, txFrame, putFront, ha.idle, hps, hws]
  · exact hws
  · simpa [txFrame] using hne

/-! ### The sequence number -/

theorem Reads.op {s t : State} (h : Reads s t) : t.op = s.op := by
  cases h <;> rfl

/-- The latches are loaded when a command is accepted; no primitive touches them (R26). -/
theorem SmallStep.op {s t : State} (h : SmallStep s t) : t.op = s.op := by
  cases h with
  | read _ a rest h => exact h.op
  | _ => rfl

theorem xact_op {r : Request} {ret : Return} {s t : State} (h : stateOf (xact r ret s) = some t) :
    t.op = some (latch s.seq r) :=
  xact_keeps (P := fun u => u.op = some (latch s.seq r)) (fun _ _ hs hk => hk.op.trans hs) h (fun _ => rfl)

/-- An accepted command leaves a state: a next one, or that of a short payload. -/
theorem Accepted.exec_leaves {i : Instr} {s : State} {r : Request} (ha : Accepted i s r) :
    ∃ t, (exec i s = .next t ∨ exec i s = .fault (.shortPayload t)) ∧ stateOf (exec i s) = some t := by
  rw [exec_command ha.wf ha.request]
  rcases xact_endsAs (r := r) (ret := returnOf i) ha.idle with ⟨t, ho⟩ | ⟨_, t, _, ho⟩
  · exact ⟨t, .inl ho, by rw [ho]; rfl⟩
  · exact ⟨t, .inr ho, by rw [ho]; rfl⟩

/-- Settles O38: the number is taken and latched where the command is accepted, and no primitive touches either. -/
theorem everyCommandAdvancesSeqOnce : Obligations.EveryCommandAdvancesSeqOnce := by
  intro i s r ha
  obtain ⟨t, ho, ht⟩ := ha.exec_leaves
  rw [exec_command ha.wf ha.request] at ht
  exact ⟨t, ho, by rw [xact_seq ht]; exact BitVec.toNat_add .., xact_op ht⟩

/-! ### The end of a command -/

/-- A parser that has as many answers at hand as it can ask for ends its command. -/
theorem receive_idle {as : List ReadAnswer} {s t : State} (hp : s.ph = .rxHeader ∨ s.ph = .rxPayload)
    (hn : readsLeft s ≤ as.length) (h : stateOf (receive as s) = some t) : t.ph = .idle := by
  induction as generalizing s with
  | nil => exact absurd (readsLeft_pos hp) (Nat.not_lt.mpr hn)
  | cons a rest ih =>
    rw [receive_cons] at h
    cases ho : onRead a rest s with
    | next u =>
      rw [ho] at h
      by_cases hi : u.ph = .idle
      · simp only [if_pos hi] at h
        cases h
        exact hi
      · simp only [if_neg hi] at h
        obtain ⟨hr, hf⟩ := onRead_advances hp ho hi
        rw [List.length_cons] at hn
        exact ih hr (by omega) h
    | fault f =>
      obtain ⟨_, u, hu, rfl⟩ := (ho ▸ onRead_endsAs a rest s : EndsAs s.ret (.fault f)).of_fault
      rw [ho] at h
      cases h
      exact hu
    | refused r =>
      rw [ho] at h
      cases h

theorem EndsWithoutResponse.phase {r : Request} {ret : Return} {s t : State} {ph : Phase} {res : Option ResultCode}
    {es : List Event} (h : EndsWithoutResponse r ret s ph res es) (ht : stateOf (xact r ret s) = some t) : t.ph = ph := by
  obtain ⟨u, hx, hu⟩ := h
  rw [hx] at ht
  cases ht
  exact hu.ph

/-- A transaction with every primitive answered ends (R195). -/
theorem xact_ends {r : Request} {ret : Return} {s t : State} (hi : s.ph = .idle) (ha : Answers s)
    (h : stateOf (xact r ret s) = some t) : t.ph = .idle := by
  obtain ⟨p, ps, hp⟩ := List.exists_cons_of_ne_nil ha.purge
  obtain ⟨x, ws, hw⟩ := List.exists_cons_of_ne_nil ha.write
  cases p with
  | ioError => exact (xact_purgeFailed hi hp).phase h
  | ok =>
    by_cases hx : x = .written (encodeRequest s.seq r).length
    · rw [xact_sent hi (by rw [hp]; rfl) (by rw [hw, hx]; rfl)] at h
      exact receive_idle (.inl rfl) (by rw [readsLeft_requestSent]; exact ha.reads) h
    · exact (xact_writeFailed hi hp hw hx).phase h

/-- An idle block holds a result of its last command. -/
def IdleHasResult (s : State) : Prop :=
  s.ph = .idle → s.res ≠ none

theorem Reads.idleHasResult {s t : State} (h : Reads s t) (hs : s.ph ≠ .idle) : IdleHasResult t := by
  intro hi
  cases h with
  | headerByte => exact absurd hi hs
  | payloadExpected => cases hi
  | payloadByte => exact absurd hi hs
  | crcByte => exact absurd hi hs
  | _ => nofun

/-- Every way into phase `Idle` writes `RES` (R218). -/
theorem SmallStep.idleHasResult {s t : State} (hs : IdleHasResult s) (h : SmallStep s t) : IdleHasResult t := by
  cases h with
  | idle => exact hs
  | purgeFailed => nofun
  | purged => nofun
  | sent => nofun
  | sendFailed => nofun
  | flushed => nofun
  | read hp a rest h => exact h.idleHasResult (by rcases hp with hp | hp <;> simp [hp])

theorem xact_idleHasResult {r : Request} {ret : Return} {s t : State} (h : stateOf (xact r ret s) = some t) :
    IdleHasResult t :=
  xact_keeps (fun _ _ hs hk => hk.idleHasResult hs) h (fun _ => nofun)

/-- Reads are none of the other calls. -/
theorem OnlyReads.countP_eq_zero {es : List Event} {p : Event → Bool} (h : OnlyReads es) (hp : ∀ a, p (.rx a) = false) :
    es.countP p = 0 := by
  refine List.countP_eq_zero.mpr fun e he => ?_
  obtain ⟨a, rfl⟩ := h e he
  simp [hp a]

/-- The events of one command are no more than the calls of one transaction (R63, R195). -/
theorem CommandEvents.within {f : List Byte} {es : List Event} (h : CommandEvents f es) (hn : es.countP Event.isRx ≤ 520) :
    WithinOneTransaction es := by
  cases h with
  | unanswered => exact ⟨by decide, by decide, by decide, hn⟩
  | purgeFailed => exact ⟨by decide, by decide, by decide, hn⟩
  | purged => exact ⟨by decide, by decide, by decide, hn⟩
  | writeFailed a => exact ⟨le_rfl, le_rfl, Nat.zero_le 1, hn⟩
  | sent es h =>
    have hpurge := h.countP_eq_zero (p := Event.isPurge) fun _ => rfl
    have htx := h.countP_eq_zero (p := Event.isTx) fun _ => rfl
    have hflush := h.countP_eq_zero (p := Event.isFlush) fun _ => rfl
    refine ⟨?_, ?_, ?_, hn⟩
    · rw [List.countP_append, hpurge]; exact le_rfl
    · rw [List.countP_append, htx]; exact le_rfl
    · rw [List.countP_append, hflush]; exact le_rfl

/-- Settles O39: with every primitive answered the transaction ends, whatever ends it leaves a result, and its events are those of one
command. -/
theorem everyCommandEndsWhenTheTransportAnswers : Obligations.EveryCommandEndsWhenTheTransportAnswers := by
  intro i s r ha hans
  obtain ⟨t, ho, ht⟩ := ha.exec_leaves
  obtain ⟨htrace, hevents, hreads⟩ := eventsOfACommandComeInOrder i s t r ha ht
  rw [exec_command ha.wf ha.request] at ht
  have hi := xact_ends ha.idle hans ht
  exact ⟨t, ho, hi, xact_idleHasResult ht hi, htrace, hevents.within hreads⟩

end Sys2Proof.Machine
end

section
/-! PROOF. The only result codes that the block itself can leave in `RES` (R210, R211, R214), and the block that has nothing to do (R226,
R242). -/

namespace Sys2Proof.Machine

/-! ### The block with nothing to do -/

/-- Settles O15: with no second half due and no input the step is the small step, which an idle block has none of. -/
theorem idleBlockDoesNothing : Obligations.IdleBlockDoesNothing := by
  intro s hi hx hp
  have hq : secondHalfDue s = false := not_secondHalfDue_iff.mpr (by simp [hp])
  rw [step_tick hq hx, tick_idle hi]

/-! ### The result codes of the block -/

/-- What the block itself puts into `RES`: no value while a command is in flight, `Ok`, and the errors it raises (R31, R210, R214). -/
def OwnResult (cfg : Config) (r : Option ResultCode) : Prop :=
  r ∈ [none, some .ok, some .transportError, some .timeout, some .badResponse] ∨
    (r = some .crcMismatch ∧ cfg.verifyResponseCrc = true)

theorem ownResult_none (cfg : Config) : OwnResult cfg none :=
  .inl (by decide)

theorem ownResult_ok (cfg : Config) : OwnResult cfg (some .ok) :=
  .inl (by decide)

theorem Raised.ownResult {cfg : Config} {e : ResultCode} (h : Raised cfg e) : OwnResult cfg (some e) := by
  rcases h with rfl | rfl | rfl | ⟨rfl, hv⟩
  · exact .inl (by decide)
  · exact .inl (by decide)
  · exact .inl (by decide)
  · exact .inr ⟨rfl, hv⟩

/-- `t` has the configuration of `s`, and in `RES` what `s` has there or a result of the block's own. -/
structure KeepsOrOwnsResult (s t : State) : Prop where
  cfg : t.cfg = s.cfg
  res : t.res = s.res ∨ OwnResult s.cfg t.res

theorem KeepsOrOwnsResult.kept {s t : State} (hc : t.cfg = s.cfg) (hr : t.res = s.res) : KeepsOrOwnsResult s t :=
  ⟨hc, .inl hr⟩

theorem KeepsOrOwnsResult.owned {s t : State} (hc : t.cfg = s.cfg) (hr : OwnResult s.cfg t.res) : KeepsOrOwnsResult s t :=
  ⟨hc, .inr hr⟩

/-- A command that ends with an error has it in `RES` (R218). -/
theorem KeepsOrOwnsResult.raised {s t : State} {e : ResultCode} (hc : t.cfg = s.cfg) (he : Raised s.cfg e) :
    KeepsOrOwnsResult s (raise e t) :=
  .owned hc he.ownResult

theorem KeepsOrOwnsResult.trans {s t u : State} (h : KeepsOrOwnsResult s t) (g : KeepsOrOwnsResult t u) :
    KeepsOrOwnsResult s u := by
  refine ⟨g.cfg.trans h.cfg, ?_⟩
  rcases g.res with hr | hr
  · rw [hr]
    exact h.res
  · exact .inr (h.cfg ▸ hr)

/-- An answer that ends the command writes `Ok` or an error of the block's own; any other leaves `RES` alone (R138 to R146). -/
theorem Reads.keepsOrOwnsResult {s t : State} (h : Reads s t) : KeepsOrOwnsResult s t := by
  cases h with
  | failed he => exact .raised rfl (he.imp_right .inl)
  | headerMismatch b hp hv => exact .raised rfl (.inr (.inr (.inr ⟨rfl, hv⟩)))
  | badStatus => exact .raised rfl (.inr (.inr (.inl rfl)))
  | noPayload => exact .owned rfl (ownResult_ok _)
  | payloadMismatch b hp hv => exact .raised rfl (.inr (.inr (.inr ⟨rfl, hv⟩)))
  | payloadAccepted => exact .owned rfl (ownResult_ok _)
  | headerByte | payloadExpected | payloadByte | crcByte => exact .kept rfl rfl

/-- Of the other primitives a failed purge and a failed write alone reach `RES` (R170). -/
theorem SmallStep.keepsOrOwnsResult {s t : State} (h : SmallStep s t) : KeepsOrOwnsResult s t := by
  cases h with
  | purgeFailed => exact .raised rfl (.inr (.inl rfl))
  | sendFailed => exact .raised rfl (.inr (.inl rfl))
  | read _ a rest h =>
    have called : KeepsOrOwnsResult s (tRead1 a rest s) := .kept rfl rfl
    exact called.trans h.keepsOrOwnsResult
  | idle | purged | sent | flushed => exact .kept rfl rfl

/-- A command that is accepted clears `RES`, and its primitives write what is the block's own. -/
theorem xact_keepsOrOwnsResult {r : Request} {ret : Return} {s t : State} (h : stateOf (xact r ret s) = some t) :
    KeepsOrOwnsResult s t :=
  xact_keeps (P := KeepsOrOwnsResult s) (fun _ _ hs hk => hs.trans hk.keepsOrOwnsResult) h
    fun _ => .owned rfl (ownResult_none _)

theorem arrive_keepsOrOwnsResult {bs : List Byte} {s t : State} (h : stateOf (arrive bs s) = some t) :
    KeepsOrOwnsResult s t :=
  arrive_keeps (P := KeepsOrOwnsResult s) (fun _ _ hs hk => hs.trans hk.keepsOrOwnsResult) h fun _ => .kept rfl rfl

theorem exec_keepsOrOwnsResult {i : Instr} {s t : State} (h : stateOf (exec i s) = some t) : KeepsOrOwnsResult s t := by
  rcases exec_cases i s with ⟨r, ho⟩ | ⟨bs, ho⟩ | ho <;> rw [ho] at h
  · exact xact_keepsOrOwnsResult h
  · exact arrive_keepsOrOwnsResult h
  · cases h

/-- Settles O44: an instruction, an arrival and a small step keep `RES` or write what is the block's own (`KeepsOrOwnsResult`), a reset
clears it, and taking an input or giving up a second half of `SYNC_POSITION` does not touch it. -/
theorem blockRaisesOnlyItsOwnCodes : Obligations.BlockRaisesOnlyItsOwnCodes := by
  intro s t h
  rcases step_cases s with ⟨i, rest, _, ho⟩ | ⟨bs, i, tail, rest, _, _, ho⟩ | ⟨bs, rest, _, ho⟩ | ⟨rest, _, ho⟩ |
    ⟨ticks, rest, _, ho⟩ | ⟨_, _, ho⟩ | ⟨_, _, ho⟩ | ⟨_, ho⟩ <;> rw [ho] at h
  · exact (exec_keepsOrOwnsResult h).res
  · exact (exec_keepsOrOwnsResult h).res
  · exact (arrive_keepsOrOwnsResult h).res
  · cases h; exact .inr (ownResult_none s.cfg)
  · exact (exec_keepsOrOwnsResult h).res
  · exact (exec_keepsOrOwnsResult h).res
  · cases h; exact .inl rfl
  · exact (tick_smallStep h).keepsOrOwnsResult.res

end Sys2Proof.Machine
end

section
/-! PROOF. Reset (R240, R241, R243), and the request that comes back as its own response (R250). -/

namespace Sys2Proof.Machine

/-! ### Reset -/

/-- Settles O16: each register's reset value stands in `State.resetWith`, and `State.reset` is that state for `Config.ofSource`. -/
theorem resetLeavesTheResetValues : Obligations.ResetLeavesTheResetValues :=
  ⟨fun _ => by simp [State.resetWith], rfl, rfl, rfl⟩

/-- Settles O17: with no second half due the step takes the reset, and `resetBlock` reads no register of the command in flight. -/
theorem resetAbandonsTheCommandInFlight : Obligations.ResetAbandonsTheCommandInFlight :=
  fun _ _ hq h => step_reset hq h

/-! ### An echoed write -/

/-- A request header read as a response header: the register index stands where a response has its status flag (R81, R83, R250). -/
def echoHeader (seq : Nibble) (r : Request) : RspHeader where
  sof := constants.sof
  addr := constants.devAddr
  ctrl := ctrlByte r.dir seq
  status := r.idx
  reserved := r.off
  wc := r.wc
  hcrc := crc16 (requestHeader seq r)

theorem responseHeader_echoHeader (seq : Nibble) (r : Request) : responseHeader (echoHeader seq r) = requestHeader seq r := rfl

theorem responseBlock_echoHeader (seq : Nibble) (r : Request) :
    responseBlock (echoHeader seq r) = withCrc (requestHeader seq r) := rfl

/-- The bytes of a write to register index 1 are those of a good response with the request's payload and right CRCs: word count and
payload block stand in the same places in both formats (R81 to R85, R250). -/
theorem exists_echo {r : Request} (seq : Nibble) (hw : r.wf = true) (hd : r.dir = .write) (hi : r.idx = constants.statusOk) :
    ∃ pcrc, (Instr.rspOk (echoHeader seq r) (r.pay.getD []) pcrc).wf = true ∧
      responseBytes (echoHeader seq r) (r.pay.getD []) pcrc = encodeRequest seq r ∧
      ∀ c, pcrc = some c → crc16 (r.pay.getD []) = c := by
  rcases request_cases hw with ⟨hr, _⟩ | ⟨_, h0, hp⟩ | ⟨_, h0, p, hne, hp, hl⟩
  · cases hd.symm.trans hr
  · refine ⟨none, rspOk_wf_iff.mpr ⟨hi, .inl ⟨h0, hp, rfl⟩⟩, ?_, nofun⟩
    rw [responseBytes, responseBlock_echoHeader, encodeRequest, payloadBlock_empty hp, hp]
    rfl
  · rw [hp, Option.getD_some]
    refine ⟨some (crc16 p), rspOk_wf_iff.mpr ⟨hi, .inr ⟨h0, hl, _, rfl⟩⟩, ?_, fun _ => Option.some.inj⟩
    rw [responseBytes, responseBlock_echoHeader, encodeRequest_payload seq hp hne, List.append_assoc]
    rfl

/-- A command that writes takes nothing from its response (R175, R193): each of the other five sends a read. -/
theorem returnOf_of_write {i : Instr} {cfg : Config} {r : Request} (hr : i.request cfg = some r) (hd : r.dir = .write) :
    returnOf i = .nothing := by
  cases i
  case readReg | getPositionTicks | getStatus | getFirmwareInfo | getProductInfo => cases hr; cases hd
  all_goals rfl

/-- Settles O57: the echo is a good response to the command (`exists_echo`), and its CRCs are the request's own, so enforcing them
changes nothing. -/
theorem echoedWriteIsAccepted : Obligations.EchoedWriteIsAccepted := by
  intro i s r rest ha hd hi hr
  obtain ⟨pcrc, hwf, hbytes, hcrc⟩ := exists_echo s.seq (request_wf ha.wf ha.request) hd hi
  have hans : Answered i s r (echoHeader s.seq r) (r.pay.getD []) pcrc rest :=
    { accepted := ha
      response := hwf
      crcs := fun _ => ⟨congrArg crc16 (responseHeader_echoHeader s.seq r), hcrc⟩
      ready := hbytes ▸ hr }
  obtain ⟨t, ho, hdone⟩ := hans.completed_write (returnOf_of_write ha.request hd)
  exact ⟨t, _, ho, hdone.results.res, hdone.results.rframe, rfl, congrArg (ctrlByte · s.seq) hd⟩

end Sys2Proof.Machine
end
